-- ==== Sys2Proof/Word.lean ====
section
/-! DEFINITION. The word types of the machine: a byte, a 16-bit word, a 24-bit address, the two operation widths,
an immediate operand and the names of the eight status flags (spec rules R5, R7, R11). -/

namespace Sys2Proof

/-- `BYTE_BITS = 8` (R5). -/
abbrev Byte := BitVec 8

/-- A 16-bit register, offset or operand (R20). -/
abbrev Word := BitVec 16

/-- A 24-bit address, `bank:offset` (R5 `ADDR_BITS`, R60). -/
abbrev Addr := BitVec 24

/-- The width `w` of an operation (R11): 8 or 16 bits. -/
inductive Width
  | w8
  | w16
deriving DecidableEq, Repr

/-- `w` as a number of bits. -/
def Width.bits : Width → Nat
  | .w8 => 8
  | .w16 => 16

/-- The immediate operand of an `IMM_M` or `IMM_X` instruction (R94): the one or the two bytes that were fetched.
The operand is never extended to another width (R93). -/
inductive Imm
  | byte (v : Byte)
  | word (v : Word)
deriving DecidableEq, Repr

/-- The flags of the status register `P`, in the order `nvmxdizc` (R7, R30). -/
inductive Flag
  | n
  | v
  | m
  | x
  | d
  | i
  | z
  | c
deriving DecidableEq, Repr

end Sys2Proof
end

