-- ==== Sys2Proof/Syntax.lean ====
section
/-! DEFINITION. The instructions: one constructor for each of the 256 rows of the opcode table (R96, R102), named by its
mnemonic and, where the mnemonic has several rows, its operand form (R92). The rows with operand bytes come first, in
opcode order, then the rows without: Lean's compiler numbers the constructors that carry data below 244. -/

namespace Sys2Proof

/-- An instruction with its operand bytes assembled (R92, R93). -/
inductive Instr
  /-- `BRK byte`, opcode 00 (R230). -/
  | brk (sig : Byte)
  /-- `ORA (dp,X)`, opcode 01 (R186). -/
  | oraDpXInd (dp : Byte)
  /-- `COP byte`, opcode 02 (R231). -/
  | cop (sig : Byte)
  /-- `ORA ofs,S`, opcode 03 (R186). -/
  | oraSr (ofs : Byte)
  /-- `TSB dp`, opcode 04 (R191). -/
  | tsbDp (dp : Byte)
  /-- `ORA dp`, opcode 05 (R186). -/
  | oraDp (dp : Byte)
  /-- `ASL dp`, opcode 06 (R182). -/
  | aslDp (dp : Byte)
  /-- `ORA [dp]`, opcode 07 (R186). -/
  | oraDpIndL (dp : Byte)
  /-- `ORA #imm`, opcode 09 (R186). -/
  | oraImm (imm : Imm)
  /-- `TSB abs`, opcode 0C (R191). -/
  | tsbAbs (abs : Word)
  /-- `ORA abs`, opcode 0D (R186). -/
  | oraAbs (abs : Word)
  /-- `ASL abs`, opcode 0E (R182). -/
  | aslAbs (abs : Word)
  /-- `ORA abslong`, opcode 0F (R186). -/
  | oraLong (long : Addr)
  /-- `BPL relbyte`, opcode 10 (R206). -/
  | bpl (rel : Byte)
  /-- `ORA (dp),Y`, opcode 11 (R186). -/
  | oraDpIndY (dp : Byte)
  /-- `ORA (dp)`, opcode 12 (R186). -/
  | oraDpInd (dp : Byte)
  /-- `ORA (ofs,S),Y`, opcode 13 (R186). -/
  | oraSrIndY (ofs : Byte)
  /-- `TRB dp`, opcode 14 (R190). -/
  | trbDp (dp : Byte)
  /-- `ORA dp,X`, opcode 15 (R186). -/
  | oraDpX (dp : Byte)
  /-- `ASL dp,X`, opcode 16 (R182). -/
  | aslDpX (dp : Byte)
  /-- `ORA [dp],Y`, opcode 17 (R186). -/
  | oraDpIndLY (dp : Byte)
  /-- `ORA abs,Y`, opcode 19 (R186). -/
  | oraAbsY (abs : Word)
  /-- `TRB abs`, opcode 1C (R190). -/
  | trbAbs (abs : Word)
  /-- `ORA abs,X`, opcode 1D (R186). -/
  | oraAbsX (abs : Word)
  /-- `ASL abs,X`, opcode 1E (R182). -/
  | aslAbsX (abs : Word)
  /-- `ORA abslong,X`, opcode 1F (R186). -/
  | oraLongX (long : Addr)
  /-- `JSR abs`, opcode 20 (R214). -/
  | jsrAbs (abs : Word)
  /-- `AND (dp,X)`, opcode 21 (R181). -/
  | andDpXInd (dp : Byte)
  /-- `JSL abslong`, opcode 22 (R213). -/
  | jsl (long : Addr)
  /-- `AND ofs,S`, opcode 23 (R181). -/
  | andSr (ofs : Byte)
  /-- `BIT dp`, opcode 24 (R183). -/
  | bitDp (dp : Byte)
  /-- `AND dp`, opcode 25 (R181). -/
  | andDp (dp : Byte)
  /-- `ROL dp`, opcode 26 (R187). -/
  | rolDp (dp : Byte)
  /-- `AND [dp]`, opcode 27 (R181). -/
  | andDpIndL (dp : Byte)
  /-- `AND #imm`, opcode 29 (R181). -/
  | andImm (imm : Imm)
  /-- `BIT abs`, opcode 2C (R183). -/
  | bitAbs (abs : Word)
  /-- `AND abs`, opcode 2D (R181). -/
  | andAbs (abs : Word)
  /-- `ROL abs`, opcode 2E (R187). -/
  | rolAbs (abs : Word)
  /-- `AND abslong`, opcode 2F (R181). -/
  | andLong (long : Addr)
  /-- `BMI relbyte`, opcode 30 (R204). -/
  | bmi (rel : Byte)
  /-- `AND (dp),Y`, opcode 31 (R181). -/
  | andDpIndY (dp : Byte)
  /-- `AND (dp)`, opcode 32 (R181). -/
  | andDpInd (dp : Byte)
  /-- `AND (ofs,S),Y`, opcode 33 (R181). -/
  | andSrIndY (ofs : Byte)
  /-- `BIT dp,X`, opcode 34 (R183). -/
  | bitDpX (dp : Byte)
  /-- `AND dp,X`, opcode 35 (R181). -/
  | andDpX (dp : Byte)
  /-- `ROL dp,X`, opcode 36 (R187). -/
  | rolDpX (dp : Byte)
  /-- `AND [dp],Y`, opcode 37 (R181). -/
  | andDpIndLY (dp : Byte)
  /-- `AND abs,Y`, opcode 39 (R181). -/
  | andAbsY (abs : Word)
  /-- `BIT abs,X`, opcode 3C (R183). -/
  | bitAbsX (abs : Word)
  /-- `AND abs,X`, opcode 3D (R181). -/
  | andAbsX (abs : Word)
  /-- `ROL abs,X`, opcode 3E (R187). -/
  | rolAbsX (abs : Word)
  /-- `AND abslong,X`, opcode 3F (R181). -/
  | andLongX (long : Addr)
  /-- `EOR (dp,X)`, opcode 41 (R184). -/
  | eorDpXInd (dp : Byte)
  /-- `WDM`, opcode 42 (R236). -/
  | wdm (sig : Byte)
  /-- `EOR ofs,S`, opcode 43 (R184). -/
  | eorSr (ofs : Byte)
  /-- `MVP byte,byte`, opcode 44 (R292). -/
  | mvp (dstbank : Byte) (srcbank : Byte)
  /-- `EOR dp`, opcode 45 (R184). -/
  | eorDp (dp : Byte)
  /-- `LSR dp`, opcode 46 (R185). -/
  | lsrDp (dp : Byte)
  /-- `EOR [dp]`, opcode 47 (R184). -/
  | eorDpIndL (dp : Byte)
  /-- `EOR #imm`, opcode 49 (R184). -/
  | eorImm (imm : Imm)
  /-- `JMP abs`, opcode 4C (R211). -/
  | jmpAbs (abs : Word)
  /-- `EOR abs`, opcode 4D (R184). -/
  | eorAbs (abs : Word)
  /-- `LSR abs`, opcode 4E (R185). -/
  | lsrAbs (abs : Word)
  /-- `EOR abslong`, opcode 4F (R184). -/
  | eorLong (long : Addr)
  /-- `BVC relbyte`, opcode 50 (R209). -/
  | bvc (rel : Byte)
  /-- `EOR (dp),Y`, opcode 51 (R184). -/
  | eorDpIndY (dp : Byte)
  /-- `EOR (dp)`, opcode 52 (R184). -/
  | eorDpInd (dp : Byte)
  /-- `EOR (ofs,S),Y`, opcode 53 (R184). -/
  | eorSrIndY (ofs : Byte)
  /-- `MVN byte,byte`, opcode 54 (R291). -/
  | mvn (dstbank : Byte) (srcbank : Byte)
  /-- `EOR dp,X`, opcode 55 (R184). -/
  | eorDpX (dp : Byte)
  /-- `LSR dp,X`, opcode 56 (R185). -/
  | lsrDpX (dp : Byte)
  /-- `EOR [dp],Y`, opcode 57 (R184). -/
  | eorDpIndLY (dp : Byte)
  /-- `EOR abs,Y`, opcode 59 (R184). -/
  | eorAbsY (abs : Word)
  /-- `JML abslong`, opcode 5C (R212). -/
  | jmlLong (long : Addr)
  /-- `EOR abs,X`, opcode 5D (R184). -/
  | eorAbsX (abs : Word)
  /-- `LSR abs,X`, opcode 5E (R185). -/
  | lsrAbsX (abs : Word)
  /-- `EOR abslong,X`, opcode 5F (R184). -/
  | eorLongX (long : Addr)
  /-- `ADC (dp,X)`, opcode 61 (R163). -/
  | adcDpXInd (dp : Byte)
  /-- `PER relword`, opcode 62 (R302). -/
  | per (rel : Word)
  /-- `ADC ofs,S`, opcode 63 (R163). -/
  | adcSr (ofs : Byte)
  /-- `STZ dp`, opcode 64 (R276). -/
  | stzDp (dp : Byte)
  /-- `ADC dp`, opcode 65 (R163). -/
  | adcDp (dp : Byte)
  /-- `ROR dp`, opcode 66 (R189). -/
  | rorDp (dp : Byte)
  /-- `ADC [dp]`, opcode 67 (R163). -/
  | adcDpIndL (dp : Byte)
  /-- `ADC #imm`, opcode 69 (R163). -/
  | adcImm (imm : Imm)
  /-- `JMP (abs)`, opcode 6C (R211). -/
  | jmpAbsInd (abs : Word)
  /-- `ADC abs`, opcode 6D (R163). -/
  | adcAbs (abs : Word)
  /-- `ROR abs`, opcode 6E (R189). -/
  | rorAbs (abs : Word)
  /-- `ADC abslong`, opcode 6F (R163). -/
  | adcLong (long : Addr)
  /-- `BVS relbyte`, opcode 70 (R210). -/
  | bvs (rel : Byte)
  /-- `ADC (dp),Y`, opcode 71 (R163). -/
  | adcDpIndY (dp : Byte)
  /-- `ADC (dp)`, opcode 72 (R163). -/
  | adcDpInd (dp : Byte)
  /-- `ADC (ofs,S),Y`, opcode 73 (R163). -/
  | adcSrIndY (ofs : Byte)
  /-- `STZ dp,X`, opcode 74 (R276). -/
  | stzDpX (dp : Byte)
  /-- `ADC dp,X`, opcode 75 (R163). -/
  | adcDpX (dp : Byte)
  /-- `ROR dp,X`, opcode 76 (R189). -/
  | rorDpX (dp : Byte)
  /-- `ADC [dp],Y`, opcode 77 (R163). -/
  | adcDpIndLY (dp : Byte)
  /-- `ADC abs,Y`, opcode 79 (R163). -/
  | adcAbsY (abs : Word)
  /-- `JMP (abs,X)`, opcode 7C (R211). -/
  | jmpAbsXInd (abs : Word)
  /-- `ADC abs,X`, opcode 7D (R163). -/
  | adcAbsX (abs : Word)
  /-- `ROR abs,X`, opcode 7E (R189). -/
  | rorAbsX (abs : Word)
  /-- `ADC abslong,X`, opcode 7F (R163). -/
  | adcLongX (long : Addr)
  /-- `BRA relbyte`, opcode 80 (R207). -/
  | bra (rel : Byte)
  /-- `STA (dp,X)`, opcode 81 (R273). -/
  | staDpXInd (dp : Byte)
  /-- `BRL relword`, opcode 82 (R208). -/
  | brl (rel : Word)
  /-- `STA ofs,S`, opcode 83 (R273). -/
  | staSr (ofs : Byte)
  /-- `STY dp`, opcode 84 (R275). -/
  | styDp (dp : Byte)
  /-- `STA dp`, opcode 85 (R273). -/
  | staDp (dp : Byte)
  /-- `STX dp`, opcode 86 (R274). -/
  | stxDp (dp : Byte)
  /-- `STA [dp]`, opcode 87 (R273). -/
  | staDpIndL (dp : Byte)
  /-- `BIT #imm`, opcode 89 (R183). -/
  | bitImm (imm : Imm)
  /-- `STY abs`, opcode 8C (R275). -/
  | styAbs (abs : Word)
  /-- `STA abs`, opcode 8D (R273). -/
  | staAbs (abs : Word)
  /-- `STX abs`, opcode 8E (R274). -/
  | stxAbs (abs : Word)
  /-- `STA abslong`, opcode 8F (R273). -/
  | staLong (long : Addr)
  /-- `BCC relbyte`, opcode 90 (R201). -/
  | bcc (rel : Byte)
  /-- `STA (dp),Y`, opcode 91 (R273). -/
  | staDpIndY (dp : Byte)
  /-- `STA (dp)`, opcode 92 (R273). -/
  | staDpInd (dp : Byte)
  /-- `STA (ofs,S),Y`, opcode 93 (R273). -/
  | staSrIndY (ofs : Byte)
  /-- `STY dp,X`, opcode 94 (R275). -/
  | styDpX (dp : Byte)
  /-- `STA dp,X`, opcode 95 (R273). -/
  | staDpX (dp : Byte)
  /-- `STX dp,Y`, opcode 96 (R274). -/
  | stxDpY (dp : Byte)
  /-- `STA [dp],Y`, opcode 97 (R273). -/
  | staDpIndLY (dp : Byte)
  /-- `STA abs,Y`, opcode 99 (R273). -/
  | staAbsY (abs : Word)
  /-- `STZ abs`, opcode 9C (R276). -/
  | stzAbs (abs : Word)
  /-- `STA abs,X`, opcode 9D (R273). -/
  | staAbsX (abs : Word)
  /-- `STZ abs,X`, opcode 9E (R276). -/
  | stzAbsX (abs : Word)
  /-- `STA abslong,X`, opcode 9F (R273). -/
  | staLongX (long : Addr)
  /-- `LDY #imm`, opcode A0 (R272). -/
  | ldyImm (imm : Imm)
  /-- `LDA (dp,X)`, opcode A1 (R270). -/
  | ldaDpXInd (dp : Byte)
  /-- `LDX #imm`, opcode A2 (R271). -/
  | ldxImm (imm : Imm)
  /-- `LDA ofs,S`, opcode A3 (R270). -/
  | ldaSr (ofs : Byte)
  /-- `LDY dp`, opcode A4 (R272). -/
  | ldyDp (dp : Byte)
  /-- `LDA dp`, opcode A5 (R270). -/
  | ldaDp (dp : Byte)
  /-- `LDX dp`, opcode A6 (R271). -/
  | ldxDp (dp : Byte)
  /-- `LDA [dp]`, opcode A7 (R270). -/
  | ldaDpIndL (dp : Byte)
  /-- `LDA #imm`, opcode A9 (R270). -/
  | ldaImm (imm : Imm)
  /-- `LDY abs`, opcode AC (R272). -/
  | ldyAbs (abs : Word)
  /-- `LDA abs`, opcode AD (R270). -/
  | ldaAbs (abs : Word)
  /-- `LDX abs`, opcode AE (R271). -/
  | ldxAbs (abs : Word)
  /-- `LDA abslong`, opcode AF (R270). -/
  | ldaLong (long : Addr)
  /-- `BCS relbyte`, opcode B0 (R202). -/
  | bcs (rel : Byte)
  /-- `LDA (dp),Y`, opcode B1 (R270). -/
  | ldaDpIndY (dp : Byte)
  /-- `LDA (dp)`, opcode B2 (R270). -/
  | ldaDpInd (dp : Byte)
  /-- `LDA (ofs,S),Y`, opcode B3 (R270). -/
  | ldaSrIndY (ofs : Byte)
  /-- `LDY dp,X`, opcode B4 (R272). -/
  | ldyDpX (dp : Byte)
  /-- `LDA dp,X`, opcode B5 (R270). -/
  | ldaDpX (dp : Byte)
  /-- `LDX dp,Y`, opcode B6 (R271). -/
  | ldxDpY (dp : Byte)
  /-- `LDA [dp],Y`, opcode B7 (R270). -/
  | ldaDpIndLY (dp : Byte)
  /-- `LDA abs,Y`, opcode B9 (R270). -/
  | ldaAbsY (abs : Word)
  /-- `LDY abs,X`, opcode BC (R272). -/
  | ldyAbsX (abs : Word)
  /-- `LDA abs,X`, opcode BD (R270). -/
  | ldaAbsX (abs : Word)
  /-- `LDX abs,Y`, opcode BE (R271). -/
  | ldxAbsY (abs : Word)
  /-- `LDA abslong,X`, opcode BF (R270). -/
  | ldaLongX (long : Addr)
  /-- `CPY #imm`, opcode C0 (R166). -/
  | cpyImm (imm : Imm)
  /-- `CMP (dp,X)`, opcode C1 (R164). -/
  | cmpDpXInd (dp : Byte)
  /-- `REP #imm`, opcode C2 (R254). -/
  | rep (imm : Byte)
  /-- `CMP ofs,S`, opcode C3 (R164). -/
  | cmpSr (ofs : Byte)
  /-- `CPY dp`, opcode C4 (R166). -/
  | cpyDp (dp : Byte)
  /-- `CMP dp`, opcode C5 (R164). -/
  | cmpDp (dp : Byte)
  /-- `DEC dp`, opcode C6 (R167). -/
  | decDp (dp : Byte)
  /-- `CMP [dp]`, opcode C7 (R164). -/
  | cmpDpIndL (dp : Byte)
  /-- `CMP #imm`, opcode C9 (R164). -/
  | cmpImm (imm : Imm)
  /-- `CPY abs`, opcode CC (R166). -/
  | cpyAbs (abs : Word)
  /-- `CMP abs`, opcode CD (R164). -/
  | cmpAbs (abs : Word)
  /-- `DEC abs`, opcode CE (R167). -/
  | decAbs (abs : Word)
  /-- `CMP abslong`, opcode CF (R164). -/
  | cmpLong (long : Addr)
  /-- `BNE relbyte`, opcode D0 (R205). -/
  | bne (rel : Byte)
  /-- `CMP (dp),Y`, opcode D1 (R164). -/
  | cmpDpIndY (dp : Byte)
  /-- `CMP (dp)`, opcode D2 (R164). -/
  | cmpDpInd (dp : Byte)
  /-- `CMP (ofs,S),Y`, opcode D3 (R164). -/
  | cmpSrIndY (ofs : Byte)
  /-- `PEI (dp)`, opcode D4 (R301). -/
  | pei (dp : Byte)
  /-- `CMP dp,X`, opcode D5 (R164). -/
  | cmpDpX (dp : Byte)
  /-- `DEC dp,X`, opcode D6 (R167). -/
  | decDpX (dp : Byte)
  /-- `CMP [dp],Y`, opcode D7 (R164). -/
  | cmpDpIndLY (dp : Byte)
  /-- `CMP abs,Y`, opcode D9 (R164). -/
  | cmpAbsY (abs : Word)
  /-- `JML [abs]`, opcode DC (R212). -/
  | jmlAbsIndL (abs : Word)
  /-- `CMP abs,X`, opcode DD (R164). -/
  | cmpAbsX (abs : Word)
  /-- `DEC abs,X`, opcode DE (R167). -/
  | decAbsX (abs : Word)
  /-- `CMP abslong,X`, opcode DF (R164). -/
  | cmpLongX (long : Addr)
  /-- `CPX #imm`, opcode E0 (R165). -/
  | cpxImm (imm : Imm)
  /-- `SBC (dp,X)`, opcode E1 (R173). -/
  | sbcDpXInd (dp : Byte)
  /-- `SEP #imm`, opcode E2 (R258). -/
  | sep (imm : Byte)
  /-- `SBC ofs,S`, opcode E3 (R173). -/
  | sbcSr (ofs : Byte)
  /-- `CPX dp`, opcode E4 (R165). -/
  | cpxDp (dp : Byte)
  /-- `SBC dp`, opcode E5 (R173). -/
  | sbcDp (dp : Byte)
  /-- `INC dp`, opcode E6 (R170). -/
  | incDp (dp : Byte)
  /-- `SBC [dp]`, opcode E7 (R173). -/
  | sbcDpIndL (dp : Byte)
  /-- `SBC #imm`, opcode E9 (R173). -/
  | sbcImm (imm : Imm)
  /-- `CPX abs`, opcode EC (R165). -/
  | cpxAbs (abs : Word)
  /-- `SBC abs`, opcode ED (R173). -/
  | sbcAbs (abs : Word)
  /-- `INC abs`, opcode EE (R170). -/
  | incAbs (abs : Word)
  /-- `SBC abslong`, opcode EF (R173). -/
  | sbcLong (long : Addr)
  /-- `BEQ relbyte`, opcode F0 (R203). -/
  | beq (rel : Byte)
  /-- `SBC (dp),Y`, opcode F1 (R173). -/
  | sbcDpIndY (dp : Byte)
  /-- `SBC (dp)`, opcode F2 (R173). -/
  | sbcDpInd (dp : Byte)
  /-- `SBC (ofs,S),Y`, opcode F3 (R173). -/
  | sbcSrIndY (ofs : Byte)
  /-- `PEA abs`, opcode F4 (R300). -/
  | pea (imm : Word)
  /-- `SBC dp,X`, opcode F5 (R173). -/
  | sbcDpX (dp : Byte)
  /-- `INC dp,X`, opcode F6 (R170). -/
  | incDpX (dp : Byte)
  /-- `SBC [dp],Y`, opcode F7 (R173). -/
  | sbcDpIndLY (dp : Byte)
  /-- `SBC abs,Y`, opcode F9 (R173). -/
  | sbcAbsY (abs : Word)
  /-- `JSR (abs,X)`, opcode FC (R214). -/
  | jsrAbsXInd (abs : Word)
  /-- `SBC abs,X`, opcode FD (R173). -/
  | sbcAbsX (abs : Word)
  /-- `INC abs,X`, opcode FE (R170). -/
  | incAbsX (abs : Word)
  /-- `SBC abslong,X`, opcode FF (R173). -/
  | sbcLongX (long : Addr)
  /-- `PHP`, opcode 08 (R307). -/
  | php
  /-- `ASL`, opcode 0A (R182). -/
  | aslAcc
  /-- `PHD`, opcode 0B (R305). -/
  | phd
  /-- `CLC`, opcode 18 (R250). -/
  | clc
  /-- `INC`, opcode 1A (R170). -/
  | incAcc
  /-- `TCS`, opcode 1B (R323). -/
  | tcs
  /-- `PLP`, opcode 28 (R313). -/
  | plp
  /-- `ROL`, opcode 2A (R187). -/
  | rolAcc
  /-- `PLD`, opcode 2B (R312). -/
  | pld
  /-- `SEC`, opcode 38 (R255). -/
  | sec
  /-- `DEC`, opcode 3A (R167). -/
  | decAcc
  /-- `TSC`, opcode 3B (R325). -/
  | tsc
  /-- `RTI`, opcode 40 (R233). -/
  | rti
  /-- `PHA`, opcode 48 (R303). -/
  | pha
  /-- `LSR`, opcode 4A (R185). -/
  | lsrAcc
  /-- `PHK`, opcode 4B (R306). -/
  | phk
  /-- `CLI`, opcode 58 (R252). -/
  | cli
  /-- `PHY`, opcode 5A (R309). -/
  | phy
  /-- `TCD`, opcode 5B (R322). -/
  | tcd
  /-- `RTS`, opcode 60 (R216). -/
  | rts
  /-- `PLA`, opcode 68 (R310). -/
  | pla
  /-- `ROR`, opcode 6A (R189). -/
  | rorAcc
  /-- `RTL`, opcode 6B (R215). -/
  | rtl
  /-- `SEI`, opcode 78 (R257). -/
  | sei
  /-- `PLY`, opcode 7A (R315). -/
  | ply
  /-- `TDC`, opcode 7B (R324). -/
  | tdc
  /-- `DEY`, opcode 88 (R169). -/
  | dey
  /-- `TXA`, opcode 8A (R327). -/
  | txa
  /-- `PHB`, opcode 8B (R304). -/
  | phb
  /-- `TYA`, opcode 98 (R330). -/
  | tya
  /-- `TXS`, opcode 9A (R328). -/
  | txs
  /-- `TXY`, opcode 9B (R329). -/
  | txy
  /-- `TAY`, opcode A8 (R321). -/
  | tay
  /-- `TAX`, opcode AA (R320). -/
  | tax
  /-- `PLB`, opcode AB (R311). -/
  | plb
  /-- `CLV`, opcode B8 (R253). -/
  | clv
  /-- `TSX`, opcode BA (R326). -/
  | tsx
  /-- `TYX`, opcode BB (R331). -/
  | tyx
  /-- `INY`, opcode C8 (R172). -/
  | iny
  /-- `DEX`, opcode CA (R168). -/
  | dex
  /-- `WAI`, opcode CB (R235). -/
  | wai
  /-- `CLD`, opcode D8 (R251). -/
  | cld
  /-- `PHX`, opcode DA (R308). -/
  | phx
  /-- `STP`, opcode DB (R234). -/
  | stp
  /-- `INX`, opcode E8 (R171). -/
  | inx
  /-- `NOP`, opcode EA (R232). -/
  | nop
  /-- `XBA`, opcode EB (R332). -/
  | xba
  /-- `SED`, opcode F8 (R256). -/
  | sed
  /-- `PLX`, opcode FA (R314). -/
  | plx
  /-- `XCE`, opcode FB (R259). -/
  | xce
deriving DecidableEq, Repr

end Sys2Proof
end

