-- ==== Sys2Proof/WellFormed.lean ====
section
/-! DEFINITION. When an instruction is well formed: an `IMM_M` or `IMM_X` immediate has the width the flags m and x
select (R93, R94). Every other operand pattern is legal for every format (R98). -/

namespace Sys2Proof

/-- The immediate has the width in force: one byte when the width flag is 1, two when it is 0 (R94). -/
def Imm.fits (flag : Bool) : Imm → Bool
  | .byte _ => flag
  | .word _ => !flag

/-- Well-formed under the width flags m and x. -/
def Instr.wf (m x : Bool) : Instr → Bool
  | .oraImm i | .andImm i | .eorImm i | .adcImm i | .bitImm i | .ldaImm i | .cmpImm i | .sbcImm i => i.fits m
  | .ldyImm i | .ldxImm i | .cpyImm i | .cpxImm i => i.fits x
  | .brk _ | .oraDpXInd _ | .cop _ | .oraSr _ | .tsbDp _ | .oraDp _ | .aslDp _ | .oraDpIndL _ | .tsbAbs _
  | .oraAbs _ | .aslAbs _ | .oraLong _ | .bpl _ | .oraDpIndY _ | .oraDpInd _ | .oraSrIndY _ | .trbDp _ | .oraDpX _
  | .aslDpX _ | .oraDpIndLY _ | .oraAbsY _ | .trbAbs _ | .oraAbsX _ | .aslAbsX _ | .oraLongX _ | .jsrAbs _
  | .andDpXInd _ | .jsl _ | .andSr _ | .bitDp _ | .andDp _ | .rolDp _ | .andDpIndL _ | .bitAbs _ | .andAbs _
  | .rolAbs _ | .andLong _ | .bmi _ | .andDpIndY _ | .andDpInd _ | .andSrIndY _ | .bitDpX _ | .andDpX _ | .rolDpX _
  | .andDpIndLY _ | .andAbsY _ | .bitAbsX _ | .andAbsX _ | .rolAbsX _ | .andLongX _ | .eorDpXInd _ | .wdm _
  | .eorSr _ | .mvp _ _ | .eorDp _ | .lsrDp _ | .eorDpIndL _ | .jmpAbs _ | .eorAbs _ | .lsrAbs _ | .eorLong _
  | .bvc _ | .eorDpIndY _ | .eorDpInd _ | .eorSrIndY _ | .mvn _ _ | .eorDpX _ | .lsrDpX _ | .eorDpIndLY _
  | .eorAbsY _ | .jmlLong _ | .eorAbsX _ | .lsrAbsX _ | .eorLongX _ | .adcDpXInd _ | .per _ | .adcSr _ | .stzDp _
  | .adcDp _ | .rorDp _ | .adcDpIndL _ | .jmpAbsInd _ | .adcAbs _ | .rorAbs _ | .adcLong _ | .bvs _ | .adcDpIndY _
  | .adcDpInd _ | .adcSrIndY _ | .stzDpX _ | .adcDpX _ | .rorDpX _ | .adcDpIndLY _ | .adcAbsY _ | .jmpAbsXInd _
  | .adcAbsX _ | .rorAbsX _ | .adcLongX _ | .bra _ | .staDpXInd _ | .brl _ | .staSr _ | .styDp _ | .staDp _
  | .stxDp _ | .staDpIndL _ | .styAbs _ | .staAbs _ | .stxAbs _ | .staLong _ | .bcc _ | .staDpIndY _ | .staDpInd _
  | .staSrIndY _ | .styDpX _ | .staDpX _ | .stxDpY _ | .staDpIndLY _ | .staAbsY _ | .stzAbs _ | .staAbsX _
  | .stzAbsX _ | .staLongX _ | .ldaDpXInd _ | .ldaSr _ | .ldyDp _ | .ldaDp _ | .ldxDp _ | .ldaDpIndL _ | .ldyAbs _
  | .ldaAbs _ | .ldxAbs _ | .ldaLong _ | .bcs _ | .ldaDpIndY _ | .ldaDpInd _ | .ldaSrIndY _ | .ldyDpX _ | .ldaDpX _
  | .ldxDpY _ | .ldaDpIndLY _ | .ldaAbsY _ | .ldyAbsX _ | .ldaAbsX _ | .ldxAbsY _ | .ldaLongX _ | .cmpDpXInd _
  | .rep _ | .cmpSr _ | .cpyDp _ | .cmpDp _ | .decDp _ | .cmpDpIndL _ | .cpyAbs _ | .cmpAbs _ | .decAbs _
  | .cmpLong _ | .bne _ | .cmpDpIndY _ | .cmpDpInd _ | .cmpSrIndY _ | .pei _ | .cmpDpX _ | .decDpX _
  | .cmpDpIndLY _ | .cmpAbsY _ | .jmlAbsIndL _ | .cmpAbsX _ | .decAbsX _ | .cmpLongX _ | .sbcDpXInd _ | .sep _
  | .sbcSr _ | .cpxDp _ | .sbcDp _ | .incDp _ | .sbcDpIndL _ | .cpxAbs _ | .sbcAbs _ | .incAbs _ | .sbcLong _
  | .beq _ | .sbcDpIndY _ | .sbcDpInd _ | .sbcSrIndY _ | .pea _ | .sbcDpX _ | .incDpX _ | .sbcDpIndLY _
  | .sbcAbsY _ | .jsrAbsXInd _ | .sbcAbsX _ | .incAbsX _ | .sbcLongX _ | .php | .aslAcc | .phd | .clc | .incAcc
  | .tcs | .plp | .rolAcc | .pld | .sec | .decAcc | .tsc | .rti | .pha | .lsrAcc | .phk | .cli | .phy | .tcd | .rts
  | .pla | .rorAcc | .rtl | .sei | .ply | .tdc | .dey | .txa | .phb | .tya | .txs | .txy | .tay | .tax | .plb
  | .clv | .tsx | .tyx | .iny | .dex | .wai | .cld | .phx | .stp | .inx | .nop | .xba | .sed | .plx | .xce => true

end Sys2Proof
end

