-- ==== Sys2Proof/Decode.lean ====
section
/-! DEFINITION. The decoder (R90 to R95, the opcode map R96) and the encoder, over the bytes of an instruction in the
order they lie in memory; the byte-order helpers both use (R62, R92). -/

namespace Sys2Proof

/-! ## Byte order (R62) -/

/-- `h:l` of a low and a high byte. -/
def word16 (l h : Byte) : Word := h ++ l

/-- `b:h:l`, low byte first. -/
def addr24 (l h b : Byte) : Addr := b ++ (h ++ l)

/-- `v[7:0]`. -/
def loByte (v : Word) : Byte := v.setWidth 8

/-- `v[15:8]`. -/
def hiByte (v : Word) : Byte := (v >>> 8).setWidth 8

/-- The bytes of a 16-bit operand in address order (R92). -/
def wordBytes (v : Word) : List Byte := [loByte v, hiByte v]

/-- The bytes of a 24-bit operand in address order (R92). -/
def addrBytes (v : Addr) : List Byte := [v.setWidth 8, (v >>> 8).setWidth 8, (v >>> 16).setWidth 8]

/-- The bytes of an immediate (R94). -/
def immBytes : Imm → List Byte
  | .byte v => [v]
  | .word v => wordBytes v

/-! ## Decoding -/

/-- Why a list of bytes is no instruction. -/
inductive DecodeError
  /-- There is no opcode byte. -/
  | empty
  /-- The list ends before the operand of this opcode does. -/
  | truncated (opcode : Byte)
  /-- No row has this opcode; never answered, since all 256 have one (R98). -/
  | noSuchOpcode (opcode : Byte)
deriving DecidableEq, Repr

/-- An instruction and the bytes after it, or the reason there is none. -/
abbrev Decoded := Except DecodeError (Instr × List Byte)

/-- Formats `IMPL` and `ACC`. -/
def noOperand (i : Instr) (rest : List Byte) : Decoded := .ok (i, rest)

/-- A one-byte operand. -/
def operand8 (op : Byte) (f : Byte → Instr) : List Byte → Decoded
  | b :: rest => .ok (f b, rest)
  | [] => .error (.truncated op)

/-- A two-byte operand, low byte first. -/
def operand16 (op : Byte) (f : Word → Instr) : List Byte → Decoded
  | l :: h :: rest => .ok (f (word16 l h), rest)
  | _ => .error (.truncated op)

/-- A three-byte operand, low byte first. -/
def operand24 (op : Byte) (f : Addr → Instr) : List Byte → Decoded
  | l :: h :: b :: rest => .ok (f (addr24 l h b), rest)
  | _ => .error (.truncated op)

/-- Formats `IMM_M` and `IMM_X`: the flag selects one byte or two (R94). -/
def immOperand (op : Byte) (flag : Bool) (f : Imm → Instr) (rest : List Byte) : Decoded :=
  if flag then operand8 op (fun b => f (.byte b)) rest else operand16 op (fun v => f (.word v)) rest

/-- Format `BLOCK`: the destination bank, then the source bank (R106). -/
def blockOperand (op : Byte) (f : Byte → Byte → Instr) : List Byte → Decoded
  | dst :: src :: rest => .ok (f dst src, rest)
  | _ => .error (.truncated op)

/-- The opcode map (R96): the operand format of each opcode byte, and its operand taken from the bytes after it. -/
def decodeOperand (m x : Bool) (op : Byte) (rest : List Byte) : Decoded :=
  match op.toNat with
  | 0x00 => operand8 op .brk rest
  | 0x01 => operand8 op .oraDpXInd rest
  | 0x02 => operand8 op .cop rest
  | 0x03 => operand8 op .oraSr rest
  | 0x04 => operand8 op .tsbDp rest
  | 0x05 => operand8 op .oraDp rest
  | 0x06 => operand8 op .aslDp rest
  | 0x07 => operand8 op .oraDpIndL rest
  | 0x08 => noOperand .php rest
  | 0x09 => immOperand op m .oraImm rest
  | 0x0A => noOperand .aslAcc rest
  | 0x0B => noOperand .phd rest
  | 0x0C => operand16 op .tsbAbs rest
  | 0x0D => operand16 op .oraAbs rest
  | 0x0E => operand16 op .aslAbs rest
  | 0x0F => operand24 op .oraLong rest
  | 0x10 => operand8 op .bpl rest
  | 0x11 => operand8 op .oraDpIndY rest
  | 0x12 => operand8 op .oraDpInd rest
  | 0x13 => operand8 op .oraSrIndY rest
  | 0x14 => operand8 op .trbDp rest
  | 0x15 => operand8 op .oraDpX rest
  | 0x16 => operand8 op .aslDpX rest
  | 0x17 => operand8 op .oraDpIndLY rest
  | 0x18 => noOperand .clc rest
  | 0x19 => operand16 op .oraAbsY rest
  | 0x1A => noOperand .incAcc rest
  | 0x1B => noOperand .tcs rest
  | 0x1C => operand16 op .trbAbs rest
  | 0x1D => operand16 op .oraAbsX rest
  | 0x1E => operand16 op .aslAbsX rest
  | 0x1F => operand24 op .oraLongX rest
  | 0x20 => operand16 op .jsrAbs rest
  | 0x21 => operand8 op .andDpXInd rest
  | 0x22 => operand24 op .jsl rest
  | 0x23 => operand8 op .andSr rest
  | 0x24 => operand8 op .bitDp rest
  | 0x25 => operand8 op .andDp rest
  | 0x26 => operand8 op .rolDp rest
  | 0x27 => operand8 op .andDpIndL rest
  | 0x28 => noOperand .plp rest
  | 0x29 => immOperand op m .andImm rest
  | 0x2A => noOperand .rolAcc rest
  | 0x2B => noOperand .pld rest
  | 0x2C => operand16 op .bitAbs rest
  | 0x2D => operand16 op .andAbs rest
  | 0x2E => operand16 op .rolAbs rest
  | 0x2F => operand24 op .andLong rest
  | 0x30 => operand8 op .bmi rest
  | 0x31 => operand8 op .andDpIndY rest
  | 0x32 => operand8 op .andDpInd rest
  | 0x33 => operand8 op .andSrIndY rest
  | 0x34 => operand8 op .bitDpX rest
  | 0x35 => operand8 op .andDpX rest
  | 0x36 => operand8 op .rolDpX rest
  | 0x37 => operand8 op .andDpIndLY rest
  | 0x38 => noOperand .sec rest
  | 0x39 => operand16 op .andAbsY rest
  | 0x3A => noOperand .decAcc rest
  | 0x3B => noOperand .tsc rest
  | 0x3C => operand16 op .bitAbsX rest
  | 0x3D => operand16 op .andAbsX rest
  | 0x3E => operand16 op .rolAbsX rest
  | 0x3F => operand24 op .andLongX rest
  | 0x40 => noOperand .rti rest
  | 0x41 => operand8 op .eorDpXInd rest
  | 0x42 => operand8 op .wdm rest
  | 0x43 => operand8 op .eorSr rest
  | 0x44 => blockOperand op .mvp rest
  | 0x45 => operand8 op .eorDp rest
  | 0x46 => operand8 op .lsrDp rest
  | 0x47 => operand8 op .eorDpIndL rest
  | 0x48 => noOperand .pha rest
  | 0x49 => immOperand op m .eorImm rest
  | 0x4A => noOperand .lsrAcc rest
  | 0x4B => noOperand .phk rest
  | 0x4C => operand16 op .jmpAbs rest
  | 0x4D => operand16 op .eorAbs rest
  | 0x4E => operand16 op .lsrAbs rest
  | 0x4F => operand24 op .eorLong rest
  | 0x50 => operand8 op .bvc rest
  | 0x51 => operand8 op .eorDpIndY rest
  | 0x52 => operand8 op .eorDpInd rest
  | 0x53 => operand8 op .eorSrIndY rest
  | 0x54 => blockOperand op .mvn rest
  | 0x55 => operand8 op .eorDpX rest
  | 0x56 => operand8 op .lsrDpX rest
  | 0x57 => operand8 op .eorDpIndLY rest
  | 0x58 => noOperand .cli rest
  | 0x59 => operand16 op .eorAbsY rest
  | 0x5A => noOperand .phy rest
  | 0x5B => noOperand .tcd rest
  | 0x5C => operand24 op .jmlLong rest
  | 0x5D => operand16 op .eorAbsX rest
  | 0x5E => operand16 op .lsrAbsX rest
  | 0x5F => operand24 op .eorLongX rest
  | 0x60 => noOperand .rts rest
  | 0x61 => operand8 op .adcDpXInd rest
  | 0x62 => operand16 op .per rest
  | 0x63 => operand8 op .adcSr rest
  | 0x64 => operand8 op .stzDp rest
  | 0x65 => operand8 op .adcDp rest
  | 0x66 => operand8 op .rorDp rest
  | 0x67 => operand8 op .adcDpIndL rest
  | 0x68 => noOperand .pla rest
  | 0x69 => immOperand op m .adcImm rest
  | 0x6A => noOperand .rorAcc rest
  | 0x6B => noOperand .rtl rest
  | 0x6C => operand16 op .jmpAbsInd rest
  | 0x6D => operand16 op .adcAbs rest
  | 0x6E => operand16 op .rorAbs rest
  | 0x6F => operand24 op .adcLong rest
  | 0x70 => operand8 op .bvs rest
  | 0x71 => operand8 op .adcDpIndY rest
  | 0x72 => operand8 op .adcDpInd rest
  | 0x73 => operand8 op .adcSrIndY rest
  | 0x74 => operand8 op .stzDpX rest
  | 0x75 => operand8 op .adcDpX rest
  | 0x76 => operand8 op .rorDpX rest
  | 0x77 => operand8 op .adcDpIndLY rest
  | 0x78 => noOperand .sei rest
  | 0x79 => operand16 op .adcAbsY rest
  | 0x7A => noOperand .ply rest
  | 0x7B => noOperand .tdc rest
  | 0x7C => operand16 op .jmpAbsXInd rest
  | 0x7D => operand16 op .adcAbsX rest
  | 0x7E => operand16 op .rorAbsX rest
  | 0x7F => operand24 op .adcLongX rest
  | 0x80 => operand8 op .bra rest
  | 0x81 => operand8 op .staDpXInd rest
  | 0x82 => operand16 op .brl rest
  | 0x83 => operand8 op .staSr rest
  | 0x84 => operand8 op .styDp rest
  | 0x85 => operand8 op .staDp rest
  | 0x86 => operand8 op .stxDp rest
  | 0x87 => operand8 op .staDpIndL rest
  | 0x88 => noOperand .dey rest
  | 0x89 => immOperand op m .bitImm rest
  | 0x8A => noOperand .txa rest
  | 0x8B => noOperand .phb rest
  | 0x8C => operand16 op .styAbs rest
  | 0x8D => operand16 op .staAbs rest
  | 0x8E => operand16 op .stxAbs rest
  | 0x8F => operand24 op .staLong rest
  | 0x90 => operand8 op .bcc rest
  | 0x91 => operand8 op .staDpIndY rest
  | 0x92 => operand8 op .staDpInd rest
  | 0x93 => operand8 op .staSrIndY rest
  | 0x94 => operand8 op .styDpX rest
  | 0x95 => operand8 op .staDpX rest
  | 0x96 => operand8 op .stxDpY rest
  | 0x97 => operand8 op .staDpIndLY rest
  | 0x98 => noOperand .tya rest
  | 0x99 => operand16 op .staAbsY rest
  | 0x9A => noOperand .txs rest
  | 0x9B => noOperand .txy rest
  | 0x9C => operand16 op .stzAbs rest
  | 0x9D => operand16 op .staAbsX rest
  | 0x9E => operand16 op .stzAbsX rest
  | 0x9F => operand24 op .staLongX rest
  | 0xA0 => immOperand op x .ldyImm rest
  | 0xA1 => operand8 op .ldaDpXInd rest
  | 0xA2 => immOperand op x .ldxImm rest
  | 0xA3 => operand8 op .ldaSr rest
  | 0xA4 => operand8 op .ldyDp rest
  | 0xA5 => operand8 op .ldaDp rest
  | 0xA6 => operand8 op .ldxDp rest
  | 0xA7 => operand8 op .ldaDpIndL rest
  | 0xA8 => noOperand .tay rest
  | 0xA9 => immOperand op m .ldaImm rest
  | 0xAA => noOperand .tax rest
  | 0xAB => noOperand .plb rest
  | 0xAC => operand16 op .ldyAbs rest
  | 0xAD => operand16 op .ldaAbs rest
  | 0xAE => operand16 op .ldxAbs rest
  | 0xAF => operand24 op .ldaLong rest
  | 0xB0 => operand8 op .bcs rest
  | 0xB1 => operand8 op .ldaDpIndY rest
  | 0xB2 => operand8 op .ldaDpInd rest
  | 0xB3 => operand8 op .ldaSrIndY rest
  | 0xB4 => operand8 op .ldyDpX rest
  | 0xB5 => operand8 op .ldaDpX rest
  | 0xB6 => operand8 op .ldxDpY rest
  | 0xB7 => operand8 op .ldaDpIndLY rest
  | 0xB8 => noOperand .clv rest
  | 0xB9 => operand16 op .ldaAbsY rest
  | 0xBA => noOperand .tsx rest
  | 0xBB => noOperand .tyx rest
  | 0xBC => operand16 op .ldyAbsX rest
  | 0xBD => operand16 op .ldaAbsX rest
  | 0xBE => operand16 op .ldxAbsY rest
  | 0xBF => operand24 op .ldaLongX rest
  | 0xC0 => immOperand op x .cpyImm rest
  | 0xC1 => operand8 op .cmpDpXInd rest
  | 0xC2 => operand8 op .rep rest
  | 0xC3 => operand8 op .cmpSr rest
  | 0xC4 => operand8 op .cpyDp rest
  | 0xC5 => operand8 op .cmpDp rest
  | 0xC6 => operand8 op .decDp rest
  | 0xC7 => operand8 op .cmpDpIndL rest
  | 0xC8 => noOperand .iny rest
  | 0xC9 => immOperand op m .cmpImm rest
  | 0xCA => noOperand .dex rest
  | 0xCB => noOperand .wai rest
  | 0xCC => operand16 op .cpyAbs rest
  | 0xCD => operand16 op .cmpAbs rest
  | 0xCE => operand16 op .decAbs rest
  | 0xCF => operand24 op .cmpLong rest
  | 0xD0 => operand8 op .bne rest
  | 0xD1 => operand8 op .cmpDpIndY rest
  | 0xD2 => operand8 op .cmpDpInd rest
  | 0xD3 => operand8 op .cmpSrIndY rest
  | 0xD4 => operand8 op .pei rest
  | 0xD5 => operand8 op .cmpDpX rest
  | 0xD6 => operand8 op .decDpX rest
  | 0xD7 => operand8 op .cmpDpIndLY rest
  | 0xD8 => noOperand .cld rest
  | 0xD9 => operand16 op .cmpAbsY rest
  | 0xDA => noOperand .phx rest
  | 0xDB => noOperand .stp rest
  | 0xDC => operand16 op .jmlAbsIndL rest
  | 0xDD => operand16 op .cmpAbsX rest
  | 0xDE => operand16 op .decAbsX rest
  | 0xDF => operand24 op .cmpLongX rest
  | 0xE0 => immOperand op x .cpxImm rest
  | 0xE1 => operand8 op .sbcDpXInd rest
  | 0xE2 => operand8 op .sep rest
  | 0xE3 => operand8 op .sbcSr rest
  | 0xE4 => operand8 op .cpxDp rest
  | 0xE5 => operand8 op .sbcDp rest
  | 0xE6 => operand8 op .incDp rest
  | 0xE7 => operand8 op .sbcDpIndL rest
  | 0xE8 => noOperand .inx rest
  | 0xE9 => immOperand op m .sbcImm rest
  | 0xEA => noOperand .nop rest
  | 0xEB => noOperand .xba rest
  | 0xEC => operand16 op .cpxAbs rest
  | 0xED => operand16 op .sbcAbs rest
  | 0xEE => operand16 op .incAbs rest
  | 0xEF => operand24 op .sbcLong rest
  | 0xF0 => operand8 op .beq rest
  | 0xF1 => operand8 op .sbcDpIndY rest
  | 0xF2 => operand8 op .sbcDpInd rest
  | 0xF3 => operand8 op .sbcSrIndY rest
  | 0xF4 => operand16 op .pea rest
  | 0xF5 => operand8 op .sbcDpX rest
  | 0xF6 => operand8 op .incDpX rest
  | 0xF7 => operand8 op .sbcDpIndLY rest
  | 0xF8 => noOperand .sed rest
  | 0xF9 => operand16 op .sbcAbsY rest
  | 0xFA => noOperand .plx rest
  | 0xFB => noOperand .xce rest
  | 0xFC => operand16 op .jsrAbsXInd rest
  | 0xFD => operand16 op .sbcAbsX rest
  | 0xFE => operand16 op .incAbsX rest
  | 0xFF => operand24 op .sbcLongX rest
  | _ => .error (.noSuchOpcode op)

/-- The decoder (R95): the instruction at the head of a list of bytes, under the width flags m and x, and the bytes
after it. -/
def decode (m x : Bool) : List Byte → Decoded
  | [] => .error .empty
  | op :: rest => decodeOperand m x op rest

/-! ## Encoding -/

/-- The bytes of an instruction (R92, R96). -/
def encode : Instr → List Byte
  | .brk sig => [0x00, sig]
  | .oraDpXInd dp => [0x01, dp]
  | .cop sig => [0x02, sig]
  | .oraSr ofs => [0x03, ofs]
  | .tsbDp dp => [0x04, dp]
  | .oraDp dp => [0x05, dp]
  | .aslDp dp => [0x06, dp]
  | .oraDpIndL dp => [0x07, dp]
  | .oraImm imm => 0x09 :: immBytes imm
  | .tsbAbs abs => 0x0C :: wordBytes abs
  | .oraAbs abs => 0x0D :: wordBytes abs
  | .aslAbs abs => 0x0E :: wordBytes abs
  | .oraLong long => 0x0F :: addrBytes long
  | .bpl rel => [0x10, rel]
  | .oraDpIndY dp => [0x11, dp]
  | .oraDpInd dp => [0x12, dp]
  | .oraSrIndY ofs => [0x13, ofs]
  | .trbDp dp => [0x14, dp]
  | .oraDpX dp => [0x15, dp]
  | .aslDpX dp => [0x16, dp]
  | .oraDpIndLY dp => [0x17, dp]
  | .oraAbsY abs => 0x19 :: wordBytes abs
  | .trbAbs abs => 0x1C :: wordBytes abs
  | .oraAbsX abs => 0x1D :: wordBytes abs
  | .aslAbsX abs => 0x1E :: wordBytes abs
  | .oraLongX long => 0x1F :: addrBytes long
  | .jsrAbs abs => 0x20 :: wordBytes abs
  | .andDpXInd dp => [0x21, dp]
  | .jsl long => 0x22 :: addrBytes long
  | .andSr ofs => [0x23, ofs]
  | .bitDp dp => [0x24, dp]
  | .andDp dp => [0x25, dp]
  | .rolDp dp => [0x26, dp]
  | .andDpIndL dp => [0x27, dp]
  | .andImm imm => 0x29 :: immBytes imm
  | .bitAbs abs => 0x2C :: wordBytes abs
  | .andAbs abs => 0x2D :: wordBytes abs
  | .rolAbs abs => 0x2E :: wordBytes abs
  | .andLong long => 0x2F :: addrBytes long
  | .bmi rel => [0x30, rel]
  | .andDpIndY dp => [0x31, dp]
  | .andDpInd dp => [0x32, dp]
  | .andSrIndY ofs => [0x33, ofs]
  | .bitDpX dp => [0x34, dp]
  | .andDpX dp => [0x35, dp]
  | .rolDpX dp => [0x36, dp]
  | .andDpIndLY dp => [0x37, dp]
  | .andAbsY abs => 0x39 :: wordBytes abs
  | .bitAbsX abs => 0x3C :: wordBytes abs
  | .andAbsX abs => 0x3D :: wordBytes abs
  | .rolAbsX abs => 0x3E :: wordBytes abs
  | .andLongX long => 0x3F :: addrBytes long
  | .eorDpXInd dp => [0x41, dp]
  | .wdm sig => [0x42, sig]
  | .eorSr ofs => [0x43, ofs]
  | .mvp dstbank srcbank => [0x44, dstbank, srcbank]
  | .eorDp dp => [0x45, dp]
  | .lsrDp dp => [0x46, dp]
  | .eorDpIndL dp => [0x47, dp]
  | .eorImm imm => 0x49 :: immBytes imm
  | .jmpAbs abs => 0x4C :: wordBytes abs
  | .eorAbs abs => 0x4D :: wordBytes abs
  | .lsrAbs abs => 0x4E :: wordBytes abs
  | .eorLong long => 0x4F :: addrBytes long
  | .bvc rel => [0x50, rel]
  | .eorDpIndY dp => [0x51, dp]
  | .eorDpInd dp => [0x52, dp]
  | .eorSrIndY ofs => [0x53, ofs]
  | .mvn dstbank srcbank => [0x54, dstbank, srcbank]
  | .eorDpX dp => [0x55, dp]
  | .lsrDpX dp => [0x56, dp]
  | .eorDpIndLY dp => [0x57, dp]
  | .eorAbsY abs => 0x59 :: wordBytes abs
  | .jmlLong long => 0x5C :: addrBytes long
  | .eorAbsX abs => 0x5D :: wordBytes abs
  | .lsrAbsX abs => 0x5E :: wordBytes abs
  | .eorLongX long => 0x5F :: addrBytes long
  | .adcDpXInd dp => [0x61, dp]
  | .per rel => 0x62 :: wordBytes rel
  | .adcSr ofs => [0x63, ofs]
  | .stzDp dp => [0x64, dp]
  | .adcDp dp => [0x65, dp]
  | .rorDp dp => [0x66, dp]
  | .adcDpIndL dp => [0x67, dp]
  | .adcImm imm => 0x69 :: immBytes imm
  | .jmpAbsInd abs => 0x6C :: wordBytes abs
  | .adcAbs abs => 0x6D :: wordBytes abs
  | .rorAbs abs => 0x6E :: wordBytes abs
  | .adcLong long => 0x6F :: addrBytes long
  | .bvs rel => [0x70, rel]
  | .adcDpIndY dp => [0x71, dp]
  | .adcDpInd dp => [0x72, dp]
  | .adcSrIndY ofs => [0x73, ofs]
  | .stzDpX dp => [0x74, dp]
  | .adcDpX dp => [0x75, dp]
  | .rorDpX dp => [0x76, dp]
  | .adcDpIndLY dp => [0x77, dp]
  | .adcAbsY abs => 0x79 :: wordBytes abs
  | .jmpAbsXInd abs => 0x7C :: wordBytes abs
  | .adcAbsX abs => 0x7D :: wordBytes abs
  | .rorAbsX abs => 0x7E :: wordBytes abs
  | .adcLongX long => 0x7F :: addrBytes long
  | .bra rel => [0x80, rel]
  | .staDpXInd dp => [0x81, dp]
  | .brl rel => 0x82 :: wordBytes rel
  | .staSr ofs => [0x83, ofs]
  | .styDp dp => [0x84, dp]
  | .staDp dp => [0x85, dp]
  | .stxDp dp => [0x86, dp]
  | .staDpIndL dp => [0x87, dp]
  | .bitImm imm => 0x89 :: immBytes imm
  | .styAbs abs => 0x8C :: wordBytes abs
  | .staAbs abs => 0x8D :: wordBytes abs
  | .stxAbs abs => 0x8E :: wordBytes abs
  | .staLong long => 0x8F :: addrBytes long
  | .bcc rel => [0x90, rel]
  | .staDpIndY dp => [0x91, dp]
  | .staDpInd dp => [0x92, dp]
  | .staSrIndY ofs => [0x93, ofs]
  | .styDpX dp => [0x94, dp]
  | .staDpX dp => [0x95, dp]
  | .stxDpY dp => [0x96, dp]
  | .staDpIndLY dp => [0x97, dp]
  | .staAbsY abs => 0x99 :: wordBytes abs
  | .stzAbs abs => 0x9C :: wordBytes abs
  | .staAbsX abs => 0x9D :: wordBytes abs
  | .stzAbsX abs => 0x9E :: wordBytes abs
  | .staLongX long => 0x9F :: addrBytes long
  | .ldyImm imm => 0xA0 :: immBytes imm
  | .ldaDpXInd dp => [0xA1, dp]
  | .ldxImm imm => 0xA2 :: immBytes imm
  | .ldaSr ofs => [0xA3, ofs]
  | .ldyDp dp => [0xA4, dp]
  | .ldaDp dp => [0xA5, dp]
  | .ldxDp dp => [0xA6, dp]
  | .ldaDpIndL dp => [0xA7, dp]
  | .ldaImm imm => 0xA9 :: immBytes imm
  | .ldyAbs abs => 0xAC :: wordBytes abs
  | .ldaAbs abs => 0xAD :: wordBytes abs
  | .ldxAbs abs => 0xAE :: wordBytes abs
  | .ldaLong long => 0xAF :: addrBytes long
  | .bcs rel => [0xB0, rel]
  | .ldaDpIndY dp => [0xB1, dp]
  | .ldaDpInd dp => [0xB2, dp]
  | .ldaSrIndY ofs => [0xB3, ofs]
  | .ldyDpX dp => [0xB4, dp]
  | .ldaDpX dp => [0xB5, dp]
  | .ldxDpY dp => [0xB6, dp]
  | .ldaDpIndLY dp => [0xB7, dp]
  | .ldaAbsY abs => 0xB9 :: wordBytes abs
  | .ldyAbsX abs => 0xBC :: wordBytes abs
  | .ldaAbsX abs => 0xBD :: wordBytes abs
  | .ldxAbsY abs => 0xBE :: wordBytes abs
  | .ldaLongX long => 0xBF :: addrBytes long
  | .cpyImm imm => 0xC0 :: immBytes imm
  | .cmpDpXInd dp => [0xC1, dp]
  | .rep imm => [0xC2, imm]
  | .cmpSr ofs => [0xC3, ofs]
  | .cpyDp dp => [0xC4, dp]
  | .cmpDp dp => [0xC5, dp]
  | .decDp dp => [0xC6, dp]
  | .cmpDpIndL dp => [0xC7, dp]
  | .cmpImm imm => 0xC9 :: immBytes imm
  | .cpyAbs abs => 0xCC :: wordBytes abs
  | .cmpAbs abs => 0xCD :: wordBytes abs
  | .decAbs abs => 0xCE :: wordBytes abs
  | .cmpLong long => 0xCF :: addrBytes long
  | .bne rel => [0xD0, rel]
  | .cmpDpIndY dp => [0xD1, dp]
  | .cmpDpInd dp => [0xD2, dp]
  | .cmpSrIndY ofs => [0xD3, ofs]
  | .pei dp => [0xD4, dp]
  | .cmpDpX dp => [0xD5, dp]
  | .decDpX dp => [0xD6, dp]
  | .cmpDpIndLY dp => [0xD7, dp]
  | .cmpAbsY abs => 0xD9 :: wordBytes abs
  | .jmlAbsIndL abs => 0xDC :: wordBytes abs
  | .cmpAbsX abs => 0xDD :: wordBytes abs
  | .decAbsX abs => 0xDE :: wordBytes abs
  | .cmpLongX long => 0xDF :: addrBytes long
  | .cpxImm imm => 0xE0 :: immBytes imm
  | .sbcDpXInd dp => [0xE1, dp]
  | .sep imm => [0xE2, imm]
  | .sbcSr ofs => [0xE3, ofs]
  | .cpxDp dp => [0xE4, dp]
  | .sbcDp dp => [0xE5, dp]
  | .incDp dp => [0xE6, dp]
  | .sbcDpIndL dp => [0xE7, dp]
  | .sbcImm imm => 0xE9 :: immBytes imm
  | .cpxAbs abs => 0xEC :: wordBytes abs
  | .sbcAbs abs => 0xED :: wordBytes abs
  | .incAbs abs => 0xEE :: wordBytes abs
  | .sbcLong long => 0xEF :: addrBytes long
  | .beq rel => [0xF0, rel]
  | .sbcDpIndY dp => [0xF1, dp]
  | .sbcDpInd dp => [0xF2, dp]
  | .sbcSrIndY ofs => [0xF3, ofs]
  | .pea imm => 0xF4 :: wordBytes imm
  | .sbcDpX dp => [0xF5, dp]
  | .incDpX dp => [0xF6, dp]
  | .sbcDpIndLY dp => [0xF7, dp]
  | .sbcAbsY abs => 0xF9 :: wordBytes abs
  | .jsrAbsXInd abs => 0xFC :: wordBytes abs
  | .sbcAbsX abs => 0xFD :: wordBytes abs
  | .incAbsX abs => 0xFE :: wordBytes abs
  | .sbcLongX long => 0xFF :: addrBytes long
  | .php => [0x08]
  | .aslAcc => [0x0A]
  | .phd => [0x0B]
  | .clc => [0x18]
  | .incAcc => [0x1A]
  | .tcs => [0x1B]
  | .plp => [0x28]
  | .rolAcc => [0x2A]
  | .pld => [0x2B]
  | .sec => [0x38]
  | .decAcc => [0x3A]
  | .tsc => [0x3B]
  | .rti => [0x40]
  | .pha => [0x48]
  | .lsrAcc => [0x4A]
  | .phk => [0x4B]
  | .cli => [0x58]
  | .phy => [0x5A]
  | .tcd => [0x5B]
  | .rts => [0x60]
  | .pla => [0x68]
  | .rorAcc => [0x6A]
  | .rtl => [0x6B]
  | .sei => [0x78]
  | .ply => [0x7A]
  | .tdc => [0x7B]
  | .dey => [0x88]
  | .txa => [0x8A]
  | .phb => [0x8B]
  | .tya => [0x98]
  | .txs => [0x9A]
  | .txy => [0x9B]
  | .tay => [0xA8]
  | .tax => [0xAA]
  | .plb => [0xAB]
  | .clv => [0xB8]
  | .tsx => [0xBA]
  | .tyx => [0xBB]
  | .iny => [0xC8]
  | .dex => [0xCA]
  | .wai => [0xCB]
  | .cld => [0xD8]
  | .phx => [0xDA]
  | .stp => [0xDB]
  | .inx => [0xE8]
  | .nop => [0xEA]
  | .xba => [0xEB]
  | .sed => [0xF8]
  | .plx => [0xFA]
  | .xce => [0xFB]

/-! ## The opcode table's numbering -/

/-- The four bytes of an instruction word numbered as spec/opcode_table.json numbers it: bit 0 is the least significant
bit of the first byte; the bits from `nbits` on are 0. Four bytes is the longest instruction (R91). -/
def tableBytes (nbits w : Nat) : List Byte :=
  let v := w % 2 ^ nbits
  [BitVec.ofNat 8 v, BitVec.ofNat 8 (v / 2 ^ 8), BitVec.ofNat 8 (v / 2 ^ 16), BitVec.ofNat 8 (v / 2 ^ 24)]

/-- The instruction the decoder reads from a table word, with the width flags m and x as reset leaves them, both 1
(R48; log entry 13). -/
def decodeTableWord (nbits w : Nat) : Option Instr :=
  match decode true true (tableBytes nbits w) with
  | .ok (i, _) => some i
  | .error _ => none

end Sys2Proof
end

