-- ==== Sys2Proof/Config.lean ====
section
/-! DEFINITION. What one implementation or one run fixes and the spec leaves open (R5, R47): the draws. A draw is an
`opaque` constant applied to what distinguishes one draw from the next, so nothing can be proved about its value (log
entries 2, 4, 5, 6, 9). The parameters `MEM_INIT`, `IO_REGION` and the host inputs stand in the state. -/

namespace Sys2Proof

/-- What an instruction or an event reads a byte for (R66, R69, R120, R341). Two reads for one purpose within one
instruction are at different addresses, so purpose and address tell the byte reads of an instruction apart (log entry
9). -/
inductive ReadPurpose
  /-- An instruction byte (R66). -/
  | fetch
  /-- A byte of a pointer to an operand or of a jump target, or of the word PEI pushes (R130 to R136, R301). -/
  | pointer
  /-- A byte of an operand, or the source byte of a block move (R148, R290). -/
  | data
  /-- A byte pulled from the stack (R69, R70). -/
  | pull
  /-- A byte of a vector (R341). -/
  | vector
deriving DecidableEq, Repr

end Sys2Proof

namespace Sys2Proof.Config

/-- The draw for a location that `MEM_INIT` leaves undefined and no store has written (R81, I7), by its address. Free:
log entry 2. -/
opaque undefinedByte : Nat → Byte

/-- What the platform answers to a read of a device address (R61) where the schedule of host inputs names no answer, by
the number of the draw, the purpose of the read and its address. Free: log entry 9. -/
opaque deviceByte : Nat → ReadPurpose → Addr → Byte

/-- `DECIMAL_V` (R161, D5): flag v after a decimal ADC or SBC on valid BCD operands. Free: log entry 4. -/
opaque decimalV : Nat → Bool

/-- `DECIMAL_INVALID` (R161, D5): the result of a decimal ADC or SBC when an operand is not valid BCD; at width 8
its low byte is taken. Free: log entry 5. -/
opaque decimalInvalidResult : Nat → Word

/-- `DECIMAL_INVALID` (R161, D5): flags n, v, z and c after a decimal ADC or SBC when an operand is not valid BCD.
Free: log entry 5. -/
opaque decimalInvalidFlag : Flag → Nat → Bool

/-- `RESET_UNINIT` (R50): the accumulator after a RESET event. Free: log entry 6. -/
opaque resetC : Nat → Word

/-- `RESET_UNINIT` (R50): the low byte of X after a RESET event. Free: log entry 6. -/
opaque resetXL : Nat → Byte

/-- `RESET_UNINIT` (R50): the low byte of Y after a RESET event. Free: log entry 6. -/
opaque resetYL : Nat → Byte

/-- `RESET_UNINIT` (R50): the low byte of S after a RESET event. Free: log entry 6. -/
opaque resetSL : Nat → Byte

/-- `RESET_UNINIT` (R50): flags n, v, z and c after a RESET event. Free: log entry 6. -/
opaque resetFlag : Flag → Nat → Bool

end Sys2Proof.Config
end

