-- ==== Sys2Proof/Machine/State.lean ====
section
/-! DEFINITION. The state of the machine: exactly the items of rule R20, and four fields of the model's own (the
set of device addresses, the platform's answers there, the schedule of the host inputs, and the draw counter); the
reasons a step can stop; the state right after reset. -/

namespace Sys2Proof.Machine

/-- `Mem` (R20, R46): of the 2^24 bytes those that hold a value, by rising address: the bytes `MEM_INIT` defines (R5),
and the bytes stored since. An address that is not listed holds no value (R81). `Memory.wf` (Ops.lean) is the canonical
form. -/
abbrev Memory := List Host.Cell

/-- What the platform answers to one read of a device address (R61): the read is told by its purpose and its address. -/
structure Answer where
  purpose : ReadPurpose
  addr : Addr
  value : Byte
deriving DecidableEq, Repr

/-- The host inputs of one step (R47, R349): the RESET line, one NMI edge, the IRQ line, and what the platform answers
at device addresses. -/
structure HostInput where
  /-- `RESET_LINE` is asserted at this step (R346). -/
  reset : Bool
  /-- An `NMI_EDGE` event is delivered to this step (R344). -/
  nmi : Bool
  /-- `IRQ_LINE` is asserted at this step (R343). -/
  irq : Bool
  /-- The oracle answers of this step (R61), one for each read of an address of `IO_REGION` (log entry 9). -/
  io : List Answer
deriving DecidableEq, Repr

/-- No input asserted, and no answer. -/
def HostInput.idle : HostInput := { reset := false, nmi := false, irq := false, io := [] }

/-- The events that save a frame and go through a vector (R340, R348). -/
inductive Event
  | brk
  | cop
  | nmi
  | irq
deriving DecidableEq, Repr

/-- Where the high byte of a 16-bit operand lies (R120): `lin`, at the next 24-bit address; `b0`, at the next offset
of bank 0. -/
inductive LocKind
  | lin
  | b0
deriving DecidableEq, Repr

/-- A location `(a, kind)` (R120): the address of the operand's low byte, and the kind of its successor. -/
structure Loc where
  addr : Addr
  kind : LocKind
deriving DecidableEq, Repr

/-- The operand forms that name a location in memory (R122 to R136, summary R151), with their operand bytes. -/
inductive MemForm
  /-- `abs`, R122. -/
  | abs (a : Word)
  /-- `abslong`, R123. -/
  | long (a : Addr)
  /-- `dp`, R124. -/
  | dp (o : Byte)
  /-- `dp,X`, R125. -/
  | dpX (o : Byte)
  /-- `dp,Y`, R126. -/
  | dpY (o : Byte)
  /-- `abs,X`, R127. -/
  | absX (a : Word)
  /-- `abs,Y`, R128. -/
  | absY (a : Word)
  /-- `abslong,X`, R129. -/
  | longX (a : Addr)
  /-- `(dp)`, R130. -/
  | dpInd (o : Byte)
  /-- `[dp]`, R131. -/
  | dpIndL (o : Byte)
  /-- `(dp,X)`, R132. -/
  | dpXInd (o : Byte)
  /-- `(dp),Y`, R133. -/
  | dpIndY (o : Byte)
  /-- `[dp],Y`, R134. -/
  | dpIndLY (o : Byte)
  /-- `ofs,S`, R135. -/
  | sr (o : Byte)
  /-- `(ofs,S),Y`, R136. -/
  | srIndY (o : Byte)
deriving DecidableEq, Repr

/-- The state. Register names and widths are those of R20. -/
structure State where
  /-- `C`, the 16-bit accumulator: `A` is its low byte, `B` its high byte (R21). -/
  c : Word
  /-- `X`, index register (R22). -/
  x : Word
  /-- `Y`, index register (R22). -/
  y : Word
  /-- `S`, stack pointer, always in bank 0 (R23). -/
  s : Word
  /-- `D`, direct page register (R24). -/
  d : Word
  /-- `DBR`, data bank register (R25). -/
  dbr : Byte
  /-- `PBR`, program bank register (R26). -/
  pbr : Byte
  /-- `PC`, offset in bank `PBR` of the next opcode byte (R27). -/
  pc : Word
  /-- `P`, status register `nvmxdizc`, bits 7 to 0 (R30). -/
  p : Byte
  /-- `E`, emulation bit (R40). -/
  e : Bool
  /-- `Stopped` (R45): set by STP, cleared by reset. -/
  stopped : Bool
  /-- `Waiting` (R45): set by WAI, cleared by an interrupt source or reset. -/
  waiting : Bool
  /-- `NmiPending` (R45): the NMI latch. -/
  nmiPending : Bool
  /-- `Mem` (R46). -/
  mem : Memory
  /-- The model's own: the parameter `IO_REGION` (R5, R47, D9), as ranges of addresses, each by its first and its last.
  No step changes it (log entry 9). -/
  ioRegion : List (Nat × Nat)
  /-- The model's own: the platform's answers to the reads of device addresses in the present step (R61; log entry
  9). -/
  io : List Answer
  /-- The model's own: the host inputs of the steps to come, one entry a step; when it is empty no input is asserted
  (R47, D10; log entry 3). -/
  inputs : List HostInput
  /-- The model's own: how many draws have been taken (log entries 4 to 6, 9). -/
  draws : Nat
deriving DecidableEq, Repr

/-- Why the machine stops with a fault. No constructor: the processor has no synchronous fault and every address can
be read, written and executed (R342, R74), so no step faults. Safe: nothing is hidden behind a fault. -/
inductive Fault
deriving DecidableEq, Repr

/-- Why the model gives no meaning. -/
inductive Refusal
  /-- Raised by an arm of `exec` whose instruction has no meaning yet; no arm of this model raises it. Safe. -/
  | notModelled (mnemonic : String)
  /-- Raised by `step` if the fetched bytes do not decode. Every opcode byte has a row (R98) and four bytes are always
  fetched, so no state reaches it. Safe. -/
  | undecodable
deriving DecidableEq, Repr

/-- The outcome of an instruction or of a step. -/
abbrev Result := Host.Outcome State Fault Refusal

/-- The machine right after reset (R48, R380), with nothing in memory and no device address. The items R48 calls
unspecified (`C`, `XL`, `YL`, `SL`, n, v, z, c) hold zero, and so does `PC`, since the word at 0x00FFFC holds no value:
DESIGN CHOICE, unsafe, log entry 1. `State.start` (Ops.lean) is `Reset()` on a loaded memory. -/
def State.reset : State where
  c := 0
  x := 0
  y := 0
  s := 0x0100
  d := 0
  dbr := 0
  pbr := 0
  pc := 0
  p := 0x34
  e := true
  stopped := false
  waiting := false
  nmiPending := false
  mem := []
  ioRegion := []
  io := []
  inputs := []
  draws := 0

end Sys2Proof.Machine
end

