-- ==== Sys2Proof/Machine/Flags.lean ====
section
/-! DEFINITION. The status register's flags, the widths they select, and every flag and result computation of the
spec: addition, decimal arithmetic, comparison, shifts and rotates (R30 to R38, R160 to R162, R182 to R189). A value of
width `w` is held as a 16-bit word whose bits above `w` are zero. -/

namespace Sys2Proof.Machine

/-- The bit of `P` that holds a flag (R30). -/
def flagBit : Flag → Nat
  | .n => 7
  | .v => 6
  | .m => 5
  | .x => 4
  | .d => 3
  | .i => 2
  | .z => 1
  | .c => 0

/-- A byte with one bit replaced. -/
def setBit (p : Byte) (k : Nat) (b : Bool) : Byte :=
  if b then p ||| (1#8 <<< k) else p &&& ~~~(1#8 <<< k)

/-- One bit of `P` (R8 `P.n` to `P.c`). -/
def State.flag (s : State) (f : Flag) : Bool := s.p.getLsbD (flagBit f)

/-- Write of a single flag (R8). -/
def State.setFlag (f : Flag) (b : Bool) (s : State) : State := { s with p := setBit s.p (flagBit f) b }

/-- `wA` (R8): the width of accumulator and memory operations. -/
def State.wA (s : State) : Width := if s.flag .m then .w8 else .w16

/-- `wX` (R8): the width of index register operations. -/
def State.wX (s : State) : Width := if s.flag .x then .w8 else .w16

/-- `v[w-1:0]`: the low `w` bits of a word. -/
def trunc (w : Width) (v : Word) : Word :=
  match w with
  | .w8 => v &&& 0x00FF
  | .w16 => v

/-- `msb(v, w) = v[w-1]` (R8). -/
def msb (w : Width) (v : Word) : Bool := v.getLsbD (w.bits - 1)

/-- `SetNZ(v, w)` (R8): n is bit w-1 of the result, z says it is zero. -/
def State.setNZ (w : Width) (v : Word) (s : State) : State :=
  (s.setFlag .n (msb w v)).setFlag .z (trunc w v == 0)

/-- `AddBinary(a, b, cin, w)` (R160): result, carry out, signed overflow. -/
def addBinary (w : Width) (a b : Word) (cin : Bool) : Word × Bool × Bool :=
  let sum := a.toNat + b.toNat + cin.toNat
  let r := BitVec.ofNat 16 (sum % 2 ^ w.bits)
  (r, decide (2 ^ w.bits ≤ sum), msb w a == msb w b && msb w r != msb w a)

/-- Decimal digit `k` of a value read as BCD, least significant first (R161). -/
def bcdDigit (v : Word) (k : Nat) : Nat := v.toNat / 16 ^ k % 16

/-- Valid BCD (R11): every nibble at most 9. -/
def bcdValid (v : Word) : Bool :=
  decide (bcdDigit v 0 ≤ 9) && decide (bcdDigit v 1 ≤ 9) && decide (bcdDigit v 2 ≤ 9) && decide (bcdDigit v 3 ≤ 9)

/-- `val(x)` (R161): the decimal number a BCD value stands for. -/
def bcdVal (v : Word) : Nat :=
  bcdDigit v 0 + 10 * bcdDigit v 1 + 100 * bcdDigit v 2 + 1000 * bcdDigit v 3

/-- The BCD coding of a number below 10000 (R161). -/
def bcdCode (t : Nat) : Word :=
  BitVec.ofNat 16 (t % 10 + 16 * (t / 10 % 10) + 256 * (t / 100 % 10) + 4096 * (t / 1000 % 10))

/-- `10^k` for the `k = w/4` digits of a width (R161). -/
def bcdModulus : Width → Nat
  | .w8 => 100
  | .w16 => 10000

/-- `AddDecimal(a, b, cin, w)` (R161): result and carry out. -/
def addDecimal (w : Width) (a b : Word) (cin : Bool) : Word × Bool :=
  let t := bcdVal a + bcdVal b + cin.toNat
  (bcdCode (t % bcdModulus w), decide (bcdModulus w ≤ t))

/-- `SubDecimal(a, b, cin, w)` (R161): result and "no borrow". -/
def subDecimal (w : Width) (a b : Word) (cin : Bool) : Word × Bool :=
  let t : Int := (bcdVal a : Int) - bcdVal b - (1 - cin.toNat)
  (bcdCode (t % (bcdModulus w : Int)).toNat, decide (0 ≤ t))

/-- `Compare(reg, m, w)` (R162) of two `w`-bit values: c, z and n; nothing else. -/
def State.compare (w : Width) (reg m : Word) (s : State) : State :=
  ((s.setFlag .c (decide (m.toNat ≤ reg.toNat))).setFlag .z (reg == m)).setFlag .n (msb w (trunc w (reg - m)))

/-- ASL's `f` (R182): the shifted value and the bit shifted out. -/
def shiftLeft (w : Width) (v : Word) : Word × Bool := (trunc w (v <<< 1), msb w v)

/-- LSR's `f` (R185). -/
def shiftRight (w : Width) (v : Word) : Word × Bool := (trunc w v >>> 1, v.getLsbD 0)

/-- ROL's `f` (R187): the old carry enters at bit 0. -/
def rotateLeft (w : Width) (cin : Bool) (v : Word) : Word × Bool :=
  (trunc w (v <<< 1) ||| (if cin then 1 else 0), msb w v)

/-- ROR's `f` (R189): the old carry enters at bit w-1. -/
def rotateRight (w : Width) (cin : Bool) (v : Word) : Word × Bool :=
  (trunc w v >>> 1 ||| (if cin then 1#16 <<< (w.bits - 1) else 0), v.getLsbD 0)

end Sys2Proof.Machine
end

