-- ==== Sys2Proof/Machine/Ops.lean ====
section
/-! DEFINITION. The named operations over memory and registers: byte access and its canonical form, the multi-byte
helpers, the accumulator, the stack primitives, `Normalize`, taking an interrupt and returning from one, reset
(R42, R61 to R71, R233, R348, R380). -/

namespace Sys2Proof.Machine

/-! ## Memory (R60, R61) -/

/-- The value a location holds, if it holds one: stored, or defined by `MEM_INIT` (R61, R81). -/
def Memory.lookup : Memory → Nat → Option Byte
  | [], _ => none
  | (k, b) :: rest, a => if k = a then some b else Memory.lookup rest a

/-- A read of a byte: the value the location holds, a draw if it holds none (R61, R81; log entry 2). -/
def Memory.read (m : Memory) (a : Nat) : Byte := (m.lookup a).getD (Config.undefinedByte a)

/-- A store of a byte, in its place by address. -/
def Memory.write : Memory → Nat → Byte → Memory
  | [], a, v => [(a, v)]
  | (k, b) :: rest, a, v =>
    if a < k then (a, v) :: (k, b) :: rest
    else if a = k then (a, v) :: rest
    else (k, b) :: Memory.write rest a v

/-- The canonical form: addresses below 2^24 and strictly rising. A location that is not listed holds no value, so no
entry can repeat what it reads as. -/
def Memory.wf : Memory → Bool
  | [] => true
  | (a, _) :: rest => decide (a < 2 ^ 24) && rest.all (fun cell => decide (a < cell.1)) && Memory.wf rest

/-- The byte that `Mem` holds at an address (R46). At a device address it is what was last stored there, which no read
yields. -/
def State.byteAt (s : State) (a : Addr) : Byte := s.mem.read a.toNat

/-- An address of `IO_REGION` (R5, D9). -/
def State.isDevice (s : State) (a : Addr) : Bool :=
  s.ioRegion.any fun range => decide (range.1 ≤ a.toNat) && decide (a.toNat ≤ range.2)

/-- The answer to a read for a purpose at an address, the first that is listed. -/
def answerTo (io : List Answer) (p : ReadPurpose) (a : Addr) : Option Byte :=
  (io.find? fun x => x.purpose == p && x.addr == a).map Answer.value

/-- `MemRead(a, 1)` (R61), told from the other reads of the instruction by its purpose. Outside `IO_REGION` it yields
what `Mem` holds; inside, what the platform answers to this read, whatever was stored there (log entry 9). -/
def State.readByte (s : State) (p : ReadPurpose) (a : Addr) : Byte :=
  if s.isDevice a then (answerTo s.io p a).getD (Config.deviceByte s.draws p a) else s.byteAt a

/-- `MemWrite(a, 1, v)` (R61). What a device makes of it is the platform's (log entry 9). -/
def State.writeByte (a : Addr) (v : Byte) (s : State) : State := { s with mem := s.mem.write a.toNat v }

/-- `b:a16` (R6): the address at an offset of a bank. -/
def bankAddr (bank : Byte) (offset : Word) : Addr := bank ++ offset

/-- The successor of a location's address: `lin` or `b0` (R63, R120, R180 `next`). -/
def Loc.next (l : Loc) : Addr :=
  match l.kind with
  | .lin => l.addr + 1
  | .b0 => bankAddr 0 (l.addr.setWidth 16 + 1)

/-- Two bytes read, low address first, as a word (R62). -/
def State.read16 (s : State) (p : ReadPurpose) (lo hi : Addr) : Word := word16 (s.readByte p lo) (s.readByte p hi)

/-- `ReadB0(a16, 16)` (R63): a word in bank 0, wrapping inside it. -/
def State.readB0 (s : State) (p : ReadPurpose) (a : Word) : Word := s.read16 p (bankAddr 0 a) (bankAddr 0 (a + 1))

/-- `ReadB0_24(a16)` (R63): a 24-bit pointer in bank 0. -/
def State.readB0Long (s : State) (a : Word) : Addr :=
  addr24 (s.readByte .pointer (bankAddr 0 a)) (s.readByte .pointer (bankAddr 0 (a + 1)))
    (s.readByte .pointer (bankAddr 0 (a + 2)))

/-- `ReadPB16(a16)` (R63): a word in the program bank, wrapping inside it. -/
def State.readPB (s : State) (a : Word) : Word := s.read16 .pointer (bankAddr s.pbr a) (bankAddr s.pbr (a + 1))

/-- `ReadOp(loc, w)` (R148). -/
def State.readLoc (s : State) (l : Loc) (w : Width) : Word :=
  match w with
  | .w8 => (s.readByte .data l.addr).setWidth 16
  | .w16 => s.read16 .data l.addr l.next

/-- `WriteOp(loc, w, v)` (R148): low byte first. -/
def State.writeLoc (l : Loc) (w : Width) (v : Word) (s : State) : State :=
  match w with
  | .w8 => s.writeByte l.addr (loByte v)
  | .w16 => (s.writeByte l.addr (loByte v)).writeByte l.next (hiByte v)

/-- `WriteBack(loc, w, r)` (R180): high byte first. -/
def State.writeBack (l : Loc) (w : Width) (v : Word) (s : State) : State :=
  match w with
  | .w8 => s.writeByte l.addr (loByte v)
  | .w16 => (s.writeByte l.next (hiByte v)).writeByte l.addr (loByte v)

/-! ## Registers -/

/-- `PC` moved past `n` instruction bytes, inside its bank (R28, R66). -/
def State.advance (n : Nat) (s : State) : State := { s with pc := s.pc + BitVec.ofNat 16 n }

/-- `Areg(w)` (R8): the accumulator at a width. -/
def State.areg (s : State) (w : Width) : Word := trunc w s.c

/-- `SetA(r, w)` (R8): at width 8 only `A` is written, `B` keeps its value (R21). -/
def State.setA (w : Width) (r : Word) (s : State) : State :=
  { s with
    c := match w with
      | .w8 => word16 (loByte r) (hiByte s.c)
      | .w16 => r }

/-- `X <- zext_16(r)` at a width (R22). -/
def State.setX (w : Width) (r : Word) (s : State) : State := { s with x := trunc w r }

/-- `Y <- zext_16(r)` at a width (R22). -/
def State.setY (w : Width) (r : Word) (s : State) : State := { s with y := trunc w r }

/-- `Normalize()` (R42): `E = 1` forces m, x and `SH = 0x01`; then `x = 1` clears `XH` and `YH`. -/
def State.normalize (s : State) : State :=
  let p := if s.e then s.p ||| 0x30 else s.p
  { s with
    p := p
    s := if s.e then word16 (loByte s.s) 0x01 else s.s
    x := if p.getLsbD (flagBit .x) then trunc .w8 s.x else s.x
    y := if p.getLsbD (flagBit .x) then trunc .w8 s.y else s.y }

/-- `D <- v` (R24). -/
def State.setD (v : Word) (s : State) : State := { s with d := v }

/-- `S <- v` (R23). -/
def State.setS (v : Word) (s : State) : State := { s with s := v }

/-- `DBR <- b` (R25). -/
def State.setDBR (b : Byte) (s : State) : State := { s with dbr := b }

/-- `PBR <- b` (R26). -/
def State.setPBR (b : Byte) (s : State) : State := { s with pbr := b }

/-- `PC <- t16` (R27). -/
def State.jump (target : Word) (s : State) : State := { s with pc := target }

/-- `PBR <- t[23:16] ; PC <- t[15:0]` (R212). -/
def State.jumpLong (target : Addr) (s : State) : State :=
  { s with pbr := (target >>> 16).setWidth 8, pc := target.setWidth 16 }

/-- The whole of `P` written, then `Normalize()` (R42: PLP, RTI, REP, SEP). -/
def State.setP (v : Byte) (s : State) : State := State.normalize { s with p := v }

/-! ## Stack primitives (R67 to R71) -/

/-- `S` after an old-style push (R68): in emulation mode only `SL` counts. -/
def stackDown (e : Bool) (sp : Word) : Word :=
  if e then word16 (loByte sp - 1) (hiByte sp) else sp - 1

/-- `S` after an old-style pull (R69). -/
def stackUp (e : Bool) (sp : Word) : Word :=
  if e then word16 (loByte sp + 1) (hiByte sp) else sp + 1

/-- `Push8(v)` (R68). -/
def State.push8 (v : Byte) (s : State) : State :=
  { s with mem := s.mem.write (bankAddr 0 s.s).toNat v, s := stackDown s.e s.s }

/-- `Pull8()` (R69): the byte, and the state with `S` moved. -/
def State.pull8 (s : State) : Byte × State :=
  (s.readByte .pull (bankAddr 0 (stackUp s.e s.s)), { s with s := stackUp s.e s.s })

/-- `PushN8(v)` (R70): `S` counts as 16 bits in both modes. -/
def State.pushN8 (v : Byte) (s : State) : State :=
  { s with mem := s.mem.write (bankAddr 0 s.s).toNat v, s := s.s - 1 }

/-- `PullN8()` (R70). -/
def State.pullN8 (s : State) : Byte × State :=
  (s.readByte .pull (bankAddr 0 (s.s + 1)), { s with s := s.s + 1 })

/-- `Push16(v)` (R71): high byte first. -/
def State.push16 (v : Word) (s : State) : State := (s.push8 (hiByte v)).push8 (loByte v)

/-- `PushN16(v)` (R71). -/
def State.pushN16 (v : Word) (s : State) : State := (s.pushN8 (hiByte v)).pushN8 (loByte v)

/-- `Pull16()` (R71): low byte first. -/
def State.pull16 (s : State) : Word × State :=
  let lo := s.pull8
  let hi := lo.2.pull8
  (word16 lo.1 hi.1, hi.2)

/-- `PullN16()` (R71). -/
def State.pullN16 (s : State) : Word × State :=
  let lo := s.pullN8
  let hi := lo.2.pullN8
  (word16 lo.1 hi.1, hi.2)

/-- `PullN24()` (R71). -/
def State.pullN24 (s : State) : Addr × State :=
  let lo := s.pullN8
  let hi := lo.2.pullN8
  let bank := hi.2.pullN8
  (addr24 lo.1 hi.1 bank.1, bank.2)

/-- `PushW(v, w)` (R71). -/
def State.pushW (w : Width) (v : Word) (s : State) : State :=
  match w with
  | .w8 => s.push8 (loByte v)
  | .w16 => s.push16 v

/-- `PullW(w)` (R71). -/
def State.pullW (w : Width) (s : State) : Word × State :=
  match w with
  | .w8 => (s.pull8.1.setWidth 16, s.pull8.2)
  | .w16 => s.pull16

/-! ## Interrupts and exceptions (R348, R233, R350) -/

/-- `Vector(kind)` (R341, R348): the offset in bank 0 of an event's vector, by mode. -/
def vector (e : Bool) : Event → Word
  | .cop => if e then 0xFFF4 else 0xFFE4
  | .brk => if e then 0xFFFE else 0xFFE6
  | .nmi => if e then 0xFFFA else 0xFFEA
  | .irq => if e then 0xFFFE else 0xFFEE

/-- The copy of `P` an event pushes (R39, R348): in emulation mode bit 4 is clear for IRQ and NMI. -/
def pushedStatus (e : Bool) (p : Byte) : Event → Byte
  | .brk | .cop => p
  | .nmi | .irq => if e then p &&& 0xEF else p

/-- The pushes of an entry (R348): `PBR` in native mode only, `PC`, the copy of `P`. -/
def State.pushFrame (k : Event) (s : State) : State :=
  if s.e then (s.push16 s.pc).push8 (pushedStatus s.e s.p k)
  else ((s.push8 s.pbr).push16 s.pc).push8 (pushedStatus s.e s.p k)

/-- `Interrupt(kind)` (R348): taking BRK, COP, NMI or IRQ. `PC` already holds the offset to return to. -/
def State.interrupt (k : Event) (s : State) : State :=
  let t := ((s.pushFrame k).setFlag .i true).setFlag .d false
  { t with
    pbr := 0
    pc := t.readB0 .vector (vector s.e k)
    nmiPending := s.nmiPending && k != .nmi }

/-- The return (R233, R350): `P`, then `Normalize`, then `PC` with no increment, then `PBR` in native mode. -/
def State.returnFromInterrupt (s : State) : State :=
  let status := s.pull8
  let target := (status.2.setP status.1).pull16
  let t := target.2.jump target.1
  if t.e then t
  else
    let bank := t.pull8
    bank.2.setPBR bank.1

/-! ## Reset (R380) -/

/-- `P` after a RESET event (R48): m, x, i are 1, d is 0, and n, v, z, c are draws. -/
def resetP (k : Nat) : Byte :=
  setBit (setBit (setBit (setBit 0x34 7 (Config.resetFlag .n k)) 6 (Config.resetFlag .v k)) 1
    (Config.resetFlag .z k)) 0 (Config.resetFlag .c k)

/-- `Reset()` (R380), the RESET event: what reset does not initialise takes the draws `RESET_UNINIT` (R50). Memory,
`IO_REGION` and the schedule of host inputs are kept. -/
def State.resetEvent (s : State) : State :=
  { s with
    c := Config.resetC s.draws
    x := word16 (Config.resetXL s.draws) 0
    y := word16 (Config.resetYL s.draws) 0
    s := word16 (Config.resetSL s.draws) 0x01
    d := 0
    dbr := 0
    pbr := 0
    pc := s.readB0 .vector 0xFFFC
    p := resetP s.draws
    e := true
    stopped := false
    waiting := false
    nmiPending := false
    draws := s.draws + 1 }

/-- The start of a run by `Reset()` on the memory that `MEM_INIT` has loaded (R380, D8), with the open parameters of
rule R5 as arguments: `MEM_INIT`, `IO_REGION` and the host inputs. -/
def State.start (memInit : Memory) (ioRegion : List (Nat × Nat)) (inputs : List HostInput) : State :=
  State.resetEvent { State.reset with mem := memInit, ioRegion := ioRegion, inputs := inputs }

end Sys2Proof.Machine
end

