-- ==== Sys2Proof/Machine/Operands.lean ====
section
/-! DEFINITION. The operand forms: the location each form names (R120 to R136, R149), and the shapes an instruction is
built from: a read of an operand, a store, a read-modify-write, a relative branch (R121, R137, R139, R148, R180,
R200). -/

namespace Sys2Proof.Machine

/-- `DirectAddr(o, old)` (R149): the direct-page address; in emulation mode with `DL = 0` an old form wraps inside the
page. The case `E = 1`, `DL != 0` is the spec's fallback (D6; log entry 7). -/
def State.directAddr (s : State) (o : Word) (old : Bool) : Addr :=
  if old && s.e && loByte s.d == 0 then bankAddr 0 (word16 (loByte o) (hiByte s.d)) else bankAddr 0 (s.d + o)

/-- The 16-bit pointer of an indirect direct form (R130, R132, R133). -/
def State.directPtr (s : State) (o : Word) : Word :=
  s.read16 .pointer (s.directAddr o true) (s.directAddr (o + 1) true)

/-- The location a form names (R122 to R136, summary R151). Index registers are added as 16-bit values to the 24-bit
address (R120). -/
def State.loc (s : State) : MemForm → Loc
  | .abs a => ⟨bankAddr s.dbr a, .lin⟩
  | .long a => ⟨a, .lin⟩
  | .dp o => ⟨s.directAddr (o.setWidth 16) true, .b0⟩
  | .dpX o => ⟨s.directAddr (o.setWidth 16 + s.x) true, .b0⟩
  | .dpY o => ⟨s.directAddr (o.setWidth 16 + s.y) true, .b0⟩
  | .absX a => ⟨bankAddr s.dbr a + s.x.setWidth 24, .lin⟩
  | .absY a => ⟨bankAddr s.dbr a + s.y.setWidth 24, .lin⟩
  | .longX a => ⟨a + s.x.setWidth 24, .lin⟩
  | .dpInd o => ⟨bankAddr s.dbr (s.directPtr (o.setWidth 16)), .lin⟩
  | .dpIndL o => ⟨s.readB0Long (s.d + o.setWidth 16), .lin⟩
  | .dpXInd o => ⟨bankAddr s.dbr (s.directPtr (o.setWidth 16 + s.x)), .lin⟩
  | .dpIndY o => ⟨bankAddr s.dbr (s.directPtr (o.setWidth 16)) + s.y.setWidth 24, .lin⟩
  | .dpIndLY o => ⟨s.readB0Long (s.d + o.setWidth 16) + s.y.setWidth 24, .lin⟩
  | .sr o => ⟨bankAddr 0 (s.s + o.setWidth 16), .b0⟩
  | .srIndY o => ⟨bankAddr s.dbr (s.readB0 .pointer (s.s + o.setWidth 16)) + s.y.setWidth 24, .lin⟩

/-- The length in bytes of an instruction with a form (R92). -/
def formLength : MemForm → Nat
  | .abs _ | .absX _ | .absY _ => 3
  | .long _ | .longX _ => 4
  | .dp _ | .dpX _ | .dpY _ | .dpInd _ | .dpIndL _ | .dpXInd _ | .dpIndY _ | .dpIndLY _ | .sr _ | .srIndY _ => 2

/-- The length of an instruction with an `IMM_M` or `IMM_X` immediate (R94). -/
def immLength : Imm → Nat
  | .byte _ => 2
  | .word _ => 3

/-- An immediate as a value of the operation's width (R121). For an immediate of the other width, which the decoder
never yields (R93), the low bits are taken. -/
def immValue (w : Width) : Imm → Word
  | .byte v => v.setWidth 16
  | .word v => trunc w v

/-- The operand a form reads at a width, `Operand(w)` (R121). -/
def State.operand (s : State) (f : MemForm) (w : Width) : Word := s.readLoc (s.loc f) w

/-! ## Shapes of instructions -/

/-- An instruction that reads a memory operand at width `wA` (R120, R121). -/
def State.readA (f : MemForm) (op : Word → State → State) (s : State) : Result :=
  let t := s.advance (formLength f)
  .next (op (t.operand f t.wA) t)

/-- An instruction that reads an `IMM_M` immediate (R121). -/
def State.immA (i : Imm) (op : Word → State → State) (s : State) : Result :=
  let t := s.advance (immLength i)
  .next (op (immValue t.wA i) t)

/-- An instruction that reads a memory operand at width `wX`. -/
def State.readX (f : MemForm) (op : Word → State → State) (s : State) : Result :=
  let t := s.advance (formLength f)
  .next (op (t.operand f t.wX) t)

/-- An instruction that reads an `IMM_X` immediate. -/
def State.immX (i : Imm) (op : Word → State → State) (s : State) : Result :=
  let t := s.advance (immLength i)
  .next (op (immValue t.wX i) t)

/-- A store of a value at a width (R148). -/
def State.store (f : MemForm) (w : Width) (v : Word) (s : State) : Result :=
  let t := s.advance (formLength f)
  .next (t.writeLoc (t.loc f) w v)

/-- The accumulator form of a shift, increment or decrement (R137): `op` gives the result and the state with the carry
it writes. -/
def State.modifyA (op : State → Word → Word × State) (s : State) : Result :=
  let t := s.advance 1
  let r := op t (t.areg t.wA)
  .next ((r.2.setA t.wA r.1).setNZ t.wA r.1)

/-- `ReadModifyWrite(loc, wA, f)` (R180). -/
def State.modifyMem (f : MemForm) (op : State → Word → Word × State) (s : State) : Result :=
  let t := s.advance (formLength f)
  let r := op t (t.operand f t.wA)
  .next ((r.2.writeBack (t.loc f) t.wA r.1).setNZ t.wA r.1)

/-- TRB and TSB (R190, R191): z from the AND of the accumulator with the old operand, then the new value written
back. -/
def State.testBits (f : MemForm) (op : Word → Word → Word) (s : State) : Result :=
  let t := s.advance (formLength f)
  let v := t.operand f t.wA
  .next ((t.setFlag .z (t.areg t.wA &&& v == 0)).writeBack (t.loc f) t.wA (op (t.areg t.wA) v))

/-- A one-byte instruction that puts a value into `X` at width `wX` and sets n and z from it. -/
def State.loadX (v : Word) (s : State) : Result :=
  .next (((s.advance 1).setX s.wX v).setNZ s.wX v)

/-- A one-byte instruction that puts a value into `Y` at width `wX` and sets n and z from it. -/
def State.loadY (v : Word) (s : State) : Result :=
  .next (((s.advance 1).setY s.wX v).setNZ s.wX v)

/-- A one-byte instruction that puts a value into the accumulator at a width and sets n and z from it. -/
def State.loadA (w : Width) (v : Word) (s : State) : Result :=
  .next (((s.advance 1).setA w v).setNZ w v)

/-- `Branch(cond)` (R200, R139): `PC` past the branch, plus the sign-extended displacement if it is taken. -/
def State.branch (taken : Bool) (rel : Byte) (s : State) : Result :=
  let t := s.advance 2
  .next (if taken then t.jump (t.pc + rel.signExtend 16) else t)

end Sys2Proof.Machine
end

