-- ==== Sys2Proof/Machine/Arithmetic.lean ====
section
/-! DEFINITION. Arithmetic, compare, increment and decrement instructions (spec file 41_arithmetic.md). -/

namespace Sys2Proof.Machine

/-! ## Operations on the operand -/

/-- The end of a binary ADC or SBC (R163, R173): v, the accumulator, c, then n and z. -/
def State.setSum (w : Width) (r : Word × Bool × Bool) (s : State) : State :=
  (((s.setFlag .v r.2.2).setA w r.1).setFlag .c r.2.1).setNZ w r.1

/-- The end of a decimal ADC or SBC on valid BCD operands (R161, R163, R173): as in binary mode, but v is the draw
`DECIMAL_V`. -/
def State.setDecimal (w : Width) (r : Word × Bool) (s : State) : State :=
  let t := (((s.setFlag .v (Config.decimalV s.draws)).setA w r.1).setFlag .c r.2).setNZ w r.1
  { t with draws := s.draws + 1 }

/-- The end of a decimal ADC or SBC when an operand is not valid BCD (R161, D5): the result and n, v, z, c are the
draw `DECIMAL_INVALID`. -/
def State.setInvalidDecimal (w : Width) (s : State) : State :=
  let k := s.draws
  let t := ((((s.setA w (trunc w (Config.decimalInvalidResult k))).setFlag .n (Config.decimalInvalidFlag .n k)).setFlag .v
    (Config.decimalInvalidFlag .v k)).setFlag .z (Config.decimalInvalidFlag .z k)).setFlag .c
    (Config.decimalInvalidFlag .c k)
  { t with draws := k + 1 }

/-- The decimal half of ADC and SBC: the given result if both operands are valid BCD (R161). -/
def State.decimalOp (f : Width → Word → Word → Bool → Word × Bool) (m : Word) (s : State) : State :=
  let w := s.wA
  let a := s.areg w
  if bcdValid a && bcdValid m then s.setDecimal w (f w a m (s.flag .c)) else s.setInvalidDecimal w

/-- ADC of an operand (R163). -/
def State.adc (m : Word) (s : State) : State :=
  if s.flag .d then s.decimalOp addDecimal m
  else s.setSum s.wA (addBinary s.wA (s.areg s.wA) m (s.flag .c))

/-- SBC of an operand (R173): in binary mode the addition of its complement. -/
def State.sbc (m : Word) (s : State) : State :=
  if s.flag .d then s.decimalOp subDecimal m
  else s.setSum s.wA (addBinary s.wA (s.areg s.wA) (trunc s.wA (~~~m)) (s.flag .c))

/-- CMP (R164). -/
def State.cmp (m : Word) (s : State) : State := s.compare s.wA (s.areg s.wA) m

/-- CPX (R165). -/
def State.cpx (m : Word) (s : State) : State := s.compare s.wX (trunc s.wX s.x) m

/-- CPY (R166). -/
def State.cpy (m : Word) (s : State) : State := s.compare s.wX (trunc s.wX s.y) m

/-- INC's `f` (R170): the carry is not written. -/
def State.incr (s : State) (v : Word) : Word × State := (trunc s.wA (v + 1), s)

/-- DEC's `f` (R167): the carry is not written. -/
def State.decr (s : State) (v : Word) : Word × State := (trunc s.wA (v - 1), s)

/-! ## Instructions -/

/-! ### ADC (R163) -/

/-- `ADC (dp,X)`, opcode 61 (R163, R132). -/
def execAdcDpXInd (dp : Byte) (s : State) : Result := s.readA (.dpXInd dp) State.adc

/-- `ADC ofs,S`, opcode 63 (R163, R135). -/
def execAdcSr (ofs : Byte) (s : State) : Result := s.readA (.sr ofs) State.adc

/-- `ADC dp`, opcode 65 (R163, R124). -/
def execAdcDp (dp : Byte) (s : State) : Result := s.readA (.dp dp) State.adc

/-- `ADC [dp]`, opcode 67 (R163, R131). -/
def execAdcDpIndL (dp : Byte) (s : State) : Result := s.readA (.dpIndL dp) State.adc

/-- `ADC #imm`, opcode 69 (R163, R121). -/
def execAdcImm (imm : Imm) (s : State) : Result := s.immA imm State.adc

/-- `ADC abs`, opcode 6D (R163, R122). -/
def execAdcAbs (abs : Word) (s : State) : Result := s.readA (.abs abs) State.adc

/-- `ADC abslong`, opcode 6F (R163, R123). -/
def execAdcLong (long : Addr) (s : State) : Result := s.readA (.long long) State.adc

/-- `ADC (dp),Y`, opcode 71 (R163, R133). -/
def execAdcDpIndY (dp : Byte) (s : State) : Result := s.readA (.dpIndY dp) State.adc

/-- `ADC (dp)`, opcode 72 (R163, R130). -/
def execAdcDpInd (dp : Byte) (s : State) : Result := s.readA (.dpInd dp) State.adc

/-- `ADC (ofs,S),Y`, opcode 73 (R163, R136). -/
def execAdcSrIndY (ofs : Byte) (s : State) : Result := s.readA (.srIndY ofs) State.adc

/-- `ADC dp,X`, opcode 75 (R163, R125). -/
def execAdcDpX (dp : Byte) (s : State) : Result := s.readA (.dpX dp) State.adc

/-- `ADC [dp],Y`, opcode 77 (R163, R134). -/
def execAdcDpIndLY (dp : Byte) (s : State) : Result := s.readA (.dpIndLY dp) State.adc

/-- `ADC abs,Y`, opcode 79 (R163, R128). -/
def execAdcAbsY (abs : Word) (s : State) : Result := s.readA (.absY abs) State.adc

/-- `ADC abs,X`, opcode 7D (R163, R127). -/
def execAdcAbsX (abs : Word) (s : State) : Result := s.readA (.absX abs) State.adc

/-- `ADC abslong,X`, opcode 7F (R163, R129). -/
def execAdcLongX (long : Addr) (s : State) : Result := s.readA (.longX long) State.adc

/-! ### CMP (R164) -/

/-- `CMP (dp,X)`, opcode C1 (R164, R132). -/
def execCmpDpXInd (dp : Byte) (s : State) : Result := s.readA (.dpXInd dp) State.cmp

/-- `CMP ofs,S`, opcode C3 (R164, R135). -/
def execCmpSr (ofs : Byte) (s : State) : Result := s.readA (.sr ofs) State.cmp

/-- `CMP dp`, opcode C5 (R164, R124). -/
def execCmpDp (dp : Byte) (s : State) : Result := s.readA (.dp dp) State.cmp

/-- `CMP [dp]`, opcode C7 (R164, R131). -/
def execCmpDpIndL (dp : Byte) (s : State) : Result := s.readA (.dpIndL dp) State.cmp

/-- `CMP #imm`, opcode C9 (R164, R121). -/
def execCmpImm (imm : Imm) (s : State) : Result := s.immA imm State.cmp

/-- `CMP abs`, opcode CD (R164, R122). -/
def execCmpAbs (abs : Word) (s : State) : Result := s.readA (.abs abs) State.cmp

/-- `CMP abslong`, opcode CF (R164, R123). -/
def execCmpLong (long : Addr) (s : State) : Result := s.readA (.long long) State.cmp

/-- `CMP (dp),Y`, opcode D1 (R164, R133). -/
def execCmpDpIndY (dp : Byte) (s : State) : Result := s.readA (.dpIndY dp) State.cmp

/-- `CMP (dp)`, opcode D2 (R164, R130). -/
def execCmpDpInd (dp : Byte) (s : State) : Result := s.readA (.dpInd dp) State.cmp

/-- `CMP (ofs,S),Y`, opcode D3 (R164, R136). -/
def execCmpSrIndY (ofs : Byte) (s : State) : Result := s.readA (.srIndY ofs) State.cmp

/-- `CMP dp,X`, opcode D5 (R164, R125). -/
def execCmpDpX (dp : Byte) (s : State) : Result := s.readA (.dpX dp) State.cmp

/-- `CMP [dp],Y`, opcode D7 (R164, R134). -/
def execCmpDpIndLY (dp : Byte) (s : State) : Result := s.readA (.dpIndLY dp) State.cmp

/-- `CMP abs,Y`, opcode D9 (R164, R128). -/
def execCmpAbsY (abs : Word) (s : State) : Result := s.readA (.absY abs) State.cmp

/-- `CMP abs,X`, opcode DD (R164, R127). -/
def execCmpAbsX (abs : Word) (s : State) : Result := s.readA (.absX abs) State.cmp

/-- `CMP abslong,X`, opcode DF (R164, R129). -/
def execCmpLongX (long : Addr) (s : State) : Result := s.readA (.longX long) State.cmp

/-! ### CPX (R165) -/

/-- `CPX #imm`, opcode E0 (R165, R121). -/
def execCpxImm (imm : Imm) (s : State) : Result := s.immX imm State.cpx

/-- `CPX dp`, opcode E4 (R165, R124). -/
def execCpxDp (dp : Byte) (s : State) : Result := s.readX (.dp dp) State.cpx

/-- `CPX abs`, opcode EC (R165, R122). -/
def execCpxAbs (abs : Word) (s : State) : Result := s.readX (.abs abs) State.cpx

/-! ### CPY (R166) -/

/-- `CPY #imm`, opcode C0 (R166, R121). -/
def execCpyImm (imm : Imm) (s : State) : Result := s.immX imm State.cpy

/-- `CPY dp`, opcode C4 (R166, R124). -/
def execCpyDp (dp : Byte) (s : State) : Result := s.readX (.dp dp) State.cpy

/-- `CPY abs`, opcode CC (R166, R122). -/
def execCpyAbs (abs : Word) (s : State) : Result := s.readX (.abs abs) State.cpy

/-! ### DEC (R167) -/

/-- `DEC`, opcode 3A (R167, R137). -/
def execDecAcc (s : State) : Result := s.modifyA State.decr

/-- `DEC dp`, opcode C6 (R167, R124). -/
def execDecDp (dp : Byte) (s : State) : Result := s.modifyMem (.dp dp) State.decr

/-- `DEC abs`, opcode CE (R167, R122). -/
def execDecAbs (abs : Word) (s : State) : Result := s.modifyMem (.abs abs) State.decr

/-- `DEC dp,X`, opcode D6 (R167, R125). -/
def execDecDpX (dp : Byte) (s : State) : Result := s.modifyMem (.dpX dp) State.decr

/-- `DEC abs,X`, opcode DE (R167, R127). -/
def execDecAbsX (abs : Word) (s : State) : Result := s.modifyMem (.absX abs) State.decr

/-! ### DEX (R168) -/

/-- `DEX`, opcode CA (R168). -/
def execDex (s : State) : Result := s.loadX (s.x - 1)

/-! ### DEY (R169) -/

/-- `DEY`, opcode 88 (R169). -/
def execDey (s : State) : Result := s.loadY (s.y - 1)

/-! ### INC (R170) -/

/-- `INC`, opcode 1A (R170, R137). -/
def execIncAcc (s : State) : Result := s.modifyA State.incr

/-- `INC dp`, opcode E6 (R170, R124). -/
def execIncDp (dp : Byte) (s : State) : Result := s.modifyMem (.dp dp) State.incr

/-- `INC abs`, opcode EE (R170, R122). -/
def execIncAbs (abs : Word) (s : State) : Result := s.modifyMem (.abs abs) State.incr

/-- `INC dp,X`, opcode F6 (R170, R125). -/
def execIncDpX (dp : Byte) (s : State) : Result := s.modifyMem (.dpX dp) State.incr

/-- `INC abs,X`, opcode FE (R170, R127). -/
def execIncAbsX (abs : Word) (s : State) : Result := s.modifyMem (.absX abs) State.incr

/-! ### INX (R171) -/

/-- `INX`, opcode E8 (R171). -/
def execInx (s : State) : Result := s.loadX (s.x + 1)

/-! ### INY (R172) -/

/-- `INY`, opcode C8 (R172). -/
def execIny (s : State) : Result := s.loadY (s.y + 1)

/-! ### SBC (R173) -/

/-- `SBC (dp,X)`, opcode E1 (R173, R132). -/
def execSbcDpXInd (dp : Byte) (s : State) : Result := s.readA (.dpXInd dp) State.sbc

/-- `SBC ofs,S`, opcode E3 (R173, R135). -/
def execSbcSr (ofs : Byte) (s : State) : Result := s.readA (.sr ofs) State.sbc

/-- `SBC dp`, opcode E5 (R173, R124). -/
def execSbcDp (dp : Byte) (s : State) : Result := s.readA (.dp dp) State.sbc

/-- `SBC [dp]`, opcode E7 (R173, R131). -/
def execSbcDpIndL (dp : Byte) (s : State) : Result := s.readA (.dpIndL dp) State.sbc

/-- `SBC #imm`, opcode E9 (R173, R121). -/
def execSbcImm (imm : Imm) (s : State) : Result := s.immA imm State.sbc

/-- `SBC abs`, opcode ED (R173, R122). -/
def execSbcAbs (abs : Word) (s : State) : Result := s.readA (.abs abs) State.sbc

/-- `SBC abslong`, opcode EF (R173, R123). -/
def execSbcLong (long : Addr) (s : State) : Result := s.readA (.long long) State.sbc

/-- `SBC (dp),Y`, opcode F1 (R173, R133). -/
def execSbcDpIndY (dp : Byte) (s : State) : Result := s.readA (.dpIndY dp) State.sbc

/-- `SBC (dp)`, opcode F2 (R173, R130). -/
def execSbcDpInd (dp : Byte) (s : State) : Result := s.readA (.dpInd dp) State.sbc

/-- `SBC (ofs,S),Y`, opcode F3 (R173, R136). -/
def execSbcSrIndY (ofs : Byte) (s : State) : Result := s.readA (.srIndY ofs) State.sbc

/-- `SBC dp,X`, opcode F5 (R173, R125). -/
def execSbcDpX (dp : Byte) (s : State) : Result := s.readA (.dpX dp) State.sbc

/-- `SBC [dp],Y`, opcode F7 (R173, R134). -/
def execSbcDpIndLY (dp : Byte) (s : State) : Result := s.readA (.dpIndLY dp) State.sbc

/-- `SBC abs,Y`, opcode F9 (R173, R128). -/
def execSbcAbsY (abs : Word) (s : State) : Result := s.readA (.absY abs) State.sbc

/-- `SBC abs,X`, opcode FD (R173, R127). -/
def execSbcAbsX (abs : Word) (s : State) : Result := s.readA (.absX abs) State.sbc

/-- `SBC abslong,X`, opcode FF (R173, R129). -/
def execSbcLongX (long : Addr) (s : State) : Result := s.readA (.longX long) State.sbc

end Sys2Proof.Machine
end

