-- ==== Sys2Proof/Machine/BlockMove.lean ====
section
/-! DEFINITION. Block move instructions (spec file 47_block_move.md). -/

namespace Sys2Proof.Machine

/-- `BlockStep(dir)` (R290): one byte moved, `C` counted down, and `PC` left on the opcode until `C` was 0. -/
def State.blockStep (dstbank srcbank : Byte) (dir : Word) (s : State) : Result :=
  let t := s.advance 3
  let b := t.readByte .data (bankAddr srcbank t.x)
  .next { t.writeByte (bankAddr dstbank t.y) b with
    dbr := dstbank
    x := trunc t.wX (t.x + dir)
    y := trunc t.wX (t.y + dir)
    c := t.c - 1
    pc := if t.c = 0 then t.pc else t.pc - 3 }

/-! ### MVN (R291) -/

/-- `MVN byte,byte`, opcode 54 (R291, R146). -/
def execMvn (dstbank : Byte) (srcbank : Byte) (s : State) : Result := s.blockStep dstbank srcbank 1

/-! ### MVP (R292) -/

/-- `MVP byte,byte`, opcode 44 (R292, R146). -/
def execMvp (dstbank : Byte) (srcbank : Byte) (s : State) : Result := s.blockStep dstbank srcbank (-1)

end Sys2Proof.Machine
end

