-- ==== Sys2Proof/Machine/Control.lean ====
section
/-! DEFINITION. Branch, jump, subroutine call and return instructions (spec file 43_control_transfer.md). -/

namespace Sys2Proof.Machine

/-! ### BCC (R201) -/

/-- `BCC relbyte`, opcode 90 (R201, R139). -/
def execBcc (rel : Byte) (s : State) : Result := s.branch (!s.flag .c) rel

/-! ### BCS (R202) -/

/-- `BCS relbyte`, opcode B0 (R202, R139). -/
def execBcs (rel : Byte) (s : State) : Result := s.branch (s.flag .c) rel

/-! ### BEQ (R203) -/

/-- `BEQ relbyte`, opcode F0 (R203, R139). The condition is z = 1 (C1). -/
def execBeq (rel : Byte) (s : State) : Result := s.branch (s.flag .z) rel

/-! ### BMI (R204) -/

/-- `BMI relbyte`, opcode 30 (R204, R139). -/
def execBmi (rel : Byte) (s : State) : Result := s.branch (s.flag .n) rel

/-! ### BNE (R205) -/

/-- `BNE relbyte`, opcode D0 (R205, R139). -/
def execBne (rel : Byte) (s : State) : Result := s.branch (!s.flag .z) rel

/-! ### BPL (R206) -/

/-- `BPL relbyte`, opcode 10 (R206, R139). -/
def execBpl (rel : Byte) (s : State) : Result := s.branch (!s.flag .n) rel

/-! ### BRA (R207) -/

/-- `BRA relbyte`, opcode 80 (R207, R139). -/
def execBra (rel : Byte) (s : State) : Result := s.branch true rel

/-! ### BRL (R208) -/

/-- `BRL relword`, opcode 82 (R208, R140). -/
def execBrl (rel : Word) (s : State) : Result :=
  let t := s.advance 3
  .next (t.jump (t.pc + rel))

/-! ### BVC (R209) -/

/-- `BVC relbyte`, opcode 50 (R209, R139). -/
def execBvc (rel : Byte) (s : State) : Result := s.branch (!s.flag .v) rel

/-! ### BVS (R210) -/

/-- `BVS relbyte`, opcode 70 (R210, R139). -/
def execBvs (rel : Byte) (s : State) : Result := s.branch (s.flag .v) rel

/-! ### JML (R212) -/

/-- `JML abslong`, opcode 5C (R212, R145). -/
def execJmlLong (long : Addr) (s : State) : Result := .next (s.jumpLong long)

/-- `JML [abs]`, opcode DC (R212, R144). The source prints it as `JML [dp]` (C4). -/
def execJmlAbsIndL (abs : Word) (s : State) : Result := .next (s.jumpLong (s.readB0Long abs))

/-! ### JMP (R211) -/

/-- `JMP abs`, opcode 4C (R211, R141). -/
def execJmpAbs (abs : Word) (s : State) : Result := .next (s.jump abs)

/-- `JMP (abs)`, opcode 6C (R211, R142). -/
def execJmpAbsInd (abs : Word) (s : State) : Result := .next (s.jump (s.readB0 .pointer abs))

/-- `JMP (abs,X)`, opcode 7C (R211, R143). -/
def execJmpAbsXInd (abs : Word) (s : State) : Result := .next (s.jump (s.readPB (abs + s.x)))

/-! ### JSL (R213) -/

/-- `JSL abslong`, opcode 22 (R213, R145). The bank byte is fetched after `PBR` is pushed; the fetch (Fetch.lean) sees to it. -/
def execJsl (long : Addr) (s : State) : Result :=
  let t := ((s.advance 4).pushN8 s.pbr).pushN16 (s.pc + 3)
  .next (t.jumpLong long).normalize

/-! ### JSR (R214) -/

/-- `JSR abs`, opcode 20 (R214, R141). -/
def execJsrAbs (abs : Word) (s : State) : Result :=
  let t := (s.advance 3).push16 (s.pc + 2)
  .next (t.jump abs)

/-- `JSR (abs,X)`, opcode FC (R214, R143). The second operand byte is fetched after the pushes; the fetch (Fetch.lean) sees to it. -/
def execJsrAbsXInd (abs : Word) (s : State) : Result :=
  let t := (s.advance 3).pushN16 (s.pc + 2)
  .next (t.jump (t.readPB (abs + s.x))).normalize

/-! ### RTL (R215) -/

/-- `RTL`, opcode 6B (R215). -/
def execRtl (s : State) : Result :=
  let r := (s.advance 1).pullN24
  .next ((r.2.jump (r.1.setWidth 16 + 1)).setPBR ((r.1 >>> 16).setWidth 8)).normalize

/-! ### RTS (R216) -/

/-- `RTS`, opcode 60 (R216). -/
def execRts (s : State) : Result :=
  let r := (s.advance 1).pull16
  .next (r.2.jump (r.1 + 1))

end Sys2Proof.Machine
end

