-- ==== Sys2Proof/Machine/LoadStore.lean ====
section
/-! DEFINITION. Load and store instructions (spec file 46_load_store.md). -/

namespace Sys2Proof.Machine

/-! ## Operations on the operand -/

/-- LDA (R270). -/
def State.lda (m : Word) (s : State) : State := (s.setA s.wA m).setNZ s.wA m

/-- LDX (R271). -/
def State.ldx (m : Word) (s : State) : State := (s.setX s.wX m).setNZ s.wX m

/-- LDY (R272). -/
def State.ldy (m : Word) (s : State) : State := (s.setY s.wX m).setNZ s.wX m

/-! ## Instructions -/

/-! ### LDA (R270) -/

/-- `LDA (dp,X)`, opcode A1 (R270, R132). -/
def execLdaDpXInd (dp : Byte) (s : State) : Result := s.readA (.dpXInd dp) State.lda

/-- `LDA ofs,S`, opcode A3 (R270, R135). -/
def execLdaSr (ofs : Byte) (s : State) : Result := s.readA (.sr ofs) State.lda

/-- `LDA dp`, opcode A5 (R270, R124). -/
def execLdaDp (dp : Byte) (s : State) : Result := s.readA (.dp dp) State.lda

/-- `LDA [dp]`, opcode A7 (R270, R131). -/
def execLdaDpIndL (dp : Byte) (s : State) : Result := s.readA (.dpIndL dp) State.lda

/-- `LDA #imm`, opcode A9 (R270, R121). -/
def execLdaImm (imm : Imm) (s : State) : Result := s.immA imm State.lda

/-- `LDA abs`, opcode AD (R270, R122). -/
def execLdaAbs (abs : Word) (s : State) : Result := s.readA (.abs abs) State.lda

/-- `LDA abslong`, opcode AF (R270, R123). -/
def execLdaLong (long : Addr) (s : State) : Result := s.readA (.long long) State.lda

/-- `LDA (dp),Y`, opcode B1 (R270, R133). -/
def execLdaDpIndY (dp : Byte) (s : State) : Result := s.readA (.dpIndY dp) State.lda

/-- `LDA (dp)`, opcode B2 (R270, R130). -/
def execLdaDpInd (dp : Byte) (s : State) : Result := s.readA (.dpInd dp) State.lda

/-- `LDA (ofs,S),Y`, opcode B3 (R270, R136). -/
def execLdaSrIndY (ofs : Byte) (s : State) : Result := s.readA (.srIndY ofs) State.lda

/-- `LDA dp,X`, opcode B5 (R270, R125). -/
def execLdaDpX (dp : Byte) (s : State) : Result := s.readA (.dpX dp) State.lda

/-- `LDA [dp],Y`, opcode B7 (R270, R134). -/
def execLdaDpIndLY (dp : Byte) (s : State) : Result := s.readA (.dpIndLY dp) State.lda

/-- `LDA abs,Y`, opcode B9 (R270, R128). -/
def execLdaAbsY (abs : Word) (s : State) : Result := s.readA (.absY abs) State.lda

/-- `LDA abs,X`, opcode BD (R270, R127). -/
def execLdaAbsX (abs : Word) (s : State) : Result := s.readA (.absX abs) State.lda

/-- `LDA abslong,X`, opcode BF (R270, R129). -/
def execLdaLongX (long : Addr) (s : State) : Result := s.readA (.longX long) State.lda

/-! ### LDX (R271) -/

/-- `LDX #imm`, opcode A2 (R271, R121). -/
def execLdxImm (imm : Imm) (s : State) : Result := s.immX imm State.ldx

/-- `LDX dp`, opcode A6 (R271, R124). -/
def execLdxDp (dp : Byte) (s : State) : Result := s.readX (.dp dp) State.ldx

/-- `LDX abs`, opcode AE (R271, R122). -/
def execLdxAbs (abs : Word) (s : State) : Result := s.readX (.abs abs) State.ldx

/-- `LDX dp,Y`, opcode B6 (R271, R126). -/
def execLdxDpY (dp : Byte) (s : State) : Result := s.readX (.dpY dp) State.ldx

/-- `LDX abs,Y`, opcode BE (R271, R128). -/
def execLdxAbsY (abs : Word) (s : State) : Result := s.readX (.absY abs) State.ldx

/-! ### LDY (R272) -/

/-- `LDY #imm`, opcode A0 (R272, R121). -/
def execLdyImm (imm : Imm) (s : State) : Result := s.immX imm State.ldy

/-- `LDY dp`, opcode A4 (R272, R124). -/
def execLdyDp (dp : Byte) (s : State) : Result := s.readX (.dp dp) State.ldy

/-- `LDY abs`, opcode AC (R272, R122). -/
def execLdyAbs (abs : Word) (s : State) : Result := s.readX (.abs abs) State.ldy

/-- `LDY dp,X`, opcode B4 (R272, R125). -/
def execLdyDpX (dp : Byte) (s : State) : Result := s.readX (.dpX dp) State.ldy

/-- `LDY abs,X`, opcode BC (R272, R127). -/
def execLdyAbsX (abs : Word) (s : State) : Result := s.readX (.absX abs) State.ldy

/-! ### STA (R273) -/

/-- `STA (dp,X)`, opcode 81 (R273, R132). -/
def execStaDpXInd (dp : Byte) (s : State) : Result := s.store (.dpXInd dp) s.wA s.c

/-- `STA ofs,S`, opcode 83 (R273, R135). -/
def execStaSr (ofs : Byte) (s : State) : Result := s.store (.sr ofs) s.wA s.c

/-- `STA dp`, opcode 85 (R273, R124). -/
def execStaDp (dp : Byte) (s : State) : Result := s.store (.dp dp) s.wA s.c

/-- `STA [dp]`, opcode 87 (R273, R131). -/
def execStaDpIndL (dp : Byte) (s : State) : Result := s.store (.dpIndL dp) s.wA s.c

/-- `STA abs`, opcode 8D (R273, R122). -/
def execStaAbs (abs : Word) (s : State) : Result := s.store (.abs abs) s.wA s.c

/-- `STA abslong`, opcode 8F (R273, R123). -/
def execStaLong (long : Addr) (s : State) : Result := s.store (.long long) s.wA s.c

/-- `STA (dp),Y`, opcode 91 (R273, R133). -/
def execStaDpIndY (dp : Byte) (s : State) : Result := s.store (.dpIndY dp) s.wA s.c

/-- `STA (dp)`, opcode 92 (R273, R130). -/
def execStaDpInd (dp : Byte) (s : State) : Result := s.store (.dpInd dp) s.wA s.c

/-- `STA (ofs,S),Y`, opcode 93 (R273, R136). -/
def execStaSrIndY (ofs : Byte) (s : State) : Result := s.store (.srIndY ofs) s.wA s.c

/-- `STA dp,X`, opcode 95 (R273, R125). -/
def execStaDpX (dp : Byte) (s : State) : Result := s.store (.dpX dp) s.wA s.c

/-- `STA [dp],Y`, opcode 97 (R273, R134). -/
def execStaDpIndLY (dp : Byte) (s : State) : Result := s.store (.dpIndLY dp) s.wA s.c

/-- `STA abs,Y`, opcode 99 (R273, R128). -/
def execStaAbsY (abs : Word) (s : State) : Result := s.store (.absY abs) s.wA s.c

/-- `STA abs,X`, opcode 9D (R273, R127). -/
def execStaAbsX (abs : Word) (s : State) : Result := s.store (.absX abs) s.wA s.c

/-- `STA abslong,X`, opcode 9F (R273, R129). -/
def execStaLongX (long : Addr) (s : State) : Result := s.store (.longX long) s.wA s.c

/-! ### STX (R274) -/

/-- `STX dp`, opcode 86 (R274, R124). -/
def execStxDp (dp : Byte) (s : State) : Result := s.store (.dp dp) s.wX s.x

/-- `STX abs`, opcode 8E (R274, R122). -/
def execStxAbs (abs : Word) (s : State) : Result := s.store (.abs abs) s.wX s.x

/-- `STX dp,Y`, opcode 96 (R274, R126). -/
def execStxDpY (dp : Byte) (s : State) : Result := s.store (.dpY dp) s.wX s.x

/-! ### STY (R275) -/

/-- `STY dp`, opcode 84 (R275, R124). -/
def execStyDp (dp : Byte) (s : State) : Result := s.store (.dp dp) s.wX s.y

/-- `STY abs`, opcode 8C (R275, R122). -/
def execStyAbs (abs : Word) (s : State) : Result := s.store (.abs abs) s.wX s.y

/-- `STY dp,X`, opcode 94 (R275, R125). -/
def execStyDpX (dp : Byte) (s : State) : Result := s.store (.dpX dp) s.wX s.y

/-! ### STZ (R276) -/

/-- `STZ dp`, opcode 64 (R276, R124). -/
def execStzDp (dp : Byte) (s : State) : Result := s.store (.dp dp) s.wA 0

/-- `STZ dp,X`, opcode 74 (R276, R125). -/
def execStzDpX (dp : Byte) (s : State) : Result := s.store (.dpX dp) s.wA 0

/-- `STZ abs`, opcode 9C (R276, R122). -/
def execStzAbs (abs : Word) (s : State) : Result := s.store (.abs abs) s.wA 0

/-- `STZ abs,X`, opcode 9E (R276, R127). -/
def execStzAbsX (abs : Word) (s : State) : Result := s.store (.absX abs) s.wA 0

end Sys2Proof.Machine
end

