-- ==== Sys2Proof/Machine/Logic.lean ====
section
/-! DEFINITION. Logical, bit-test, shift and rotate instructions (spec file 42_logic_shift.md). -/

namespace Sys2Proof.Machine

/-! ## Operations on the operand -/

/-- The result of a logical operation or a load put into the accumulator, n and z set from it (R181, R184, R186). -/
def State.setResultA (r : Word) (s : State) : State := (s.setA s.wA r).setNZ s.wA r

/-- AND of an operand (R181). -/
def State.andA (m : Word) (s : State) : State := s.setResultA (s.areg s.wA &&& m)

/-- EOR of an operand (R184). -/
def State.eorA (m : Word) (s : State) : State := s.setResultA (s.areg s.wA ^^^ m)

/-- ORA of an operand (R186). -/
def State.oraA (m : Word) (s : State) : State := s.setResultA (s.areg s.wA ||| m)

/-- BIT of an immediate (R183): z only. -/
def State.bitImm (m : Word) (s : State) : State := s.setFlag .z (s.areg s.wA &&& m == 0)

/-- BIT of a memory operand (R183): z, and n and v from the operand's bits w-1 and w-2. -/
def State.bitMem (m : Word) (s : State) : State :=
  ((s.setFlag .z (s.areg s.wA &&& m == 0)).setFlag .n (msb s.wA m)).setFlag .v (m.getLsbD (s.wA.bits - 2))

/-- ASL's `f` (R182). -/
def State.asl (s : State) (v : Word) : Word × State :=
  let r := shiftLeft s.wA v
  (r.1, s.setFlag .c r.2)

/-- LSR's `f` (R185). -/
def State.lsr (s : State) (v : Word) : Word × State :=
  let r := shiftRight s.wA v
  (r.1, s.setFlag .c r.2)

/-- ROL's `f` (R187). -/
def State.rol (s : State) (v : Word) : Word × State :=
  let r := rotateLeft s.wA (s.flag .c) v
  (r.1, s.setFlag .c r.2)

/-- ROR's `f` (R189). -/
def State.ror (s : State) (v : Word) : Word × State :=
  let r := rotateRight s.wA (s.flag .c) v
  (r.1, s.setFlag .c r.2)

/-! ## Instructions -/

/-! ### AND (R181) -/

/-- `AND (dp,X)`, opcode 21 (R181, R132). -/
def execAndDpXInd (dp : Byte) (s : State) : Result := s.readA (.dpXInd dp) State.andA

/-- `AND ofs,S`, opcode 23 (R181, R135). -/
def execAndSr (ofs : Byte) (s : State) : Result := s.readA (.sr ofs) State.andA

/-- `AND dp`, opcode 25 (R181, R124). -/
def execAndDp (dp : Byte) (s : State) : Result := s.readA (.dp dp) State.andA

/-- `AND [dp]`, opcode 27 (R181, R131). -/
def execAndDpIndL (dp : Byte) (s : State) : Result := s.readA (.dpIndL dp) State.andA

/-- `AND #imm`, opcode 29 (R181, R121). -/
def execAndImm (imm : Imm) (s : State) : Result := s.immA imm State.andA

/-- `AND abs`, opcode 2D (R181, R122). -/
def execAndAbs (abs : Word) (s : State) : Result := s.readA (.abs abs) State.andA

/-- `AND abslong`, opcode 2F (R181, R123). -/
def execAndLong (long : Addr) (s : State) : Result := s.readA (.long long) State.andA

/-- `AND (dp),Y`, opcode 31 (R181, R133). -/
def execAndDpIndY (dp : Byte) (s : State) : Result := s.readA (.dpIndY dp) State.andA

/-- `AND (dp)`, opcode 32 (R181, R130). -/
def execAndDpInd (dp : Byte) (s : State) : Result := s.readA (.dpInd dp) State.andA

/-- `AND (ofs,S),Y`, opcode 33 (R181, R136). -/
def execAndSrIndY (ofs : Byte) (s : State) : Result := s.readA (.srIndY ofs) State.andA

/-- `AND dp,X`, opcode 35 (R181, R125). -/
def execAndDpX (dp : Byte) (s : State) : Result := s.readA (.dpX dp) State.andA

/-- `AND [dp],Y`, opcode 37 (R181, R134). -/
def execAndDpIndLY (dp : Byte) (s : State) : Result := s.readA (.dpIndLY dp) State.andA

/-- `AND abs,Y`, opcode 39 (R181, R128). -/
def execAndAbsY (abs : Word) (s : State) : Result := s.readA (.absY abs) State.andA

/-- `AND abs,X`, opcode 3D (R181, R127). -/
def execAndAbsX (abs : Word) (s : State) : Result := s.readA (.absX abs) State.andA

/-- `AND abslong,X`, opcode 3F (R181, R129). -/
def execAndLongX (long : Addr) (s : State) : Result := s.readA (.longX long) State.andA

/-! ### ASL (R182) -/

/-- `ASL dp`, opcode 06 (R182, R124). -/
def execAslDp (dp : Byte) (s : State) : Result := s.modifyMem (.dp dp) State.asl

/-- `ASL`, opcode 0A (R182, R137). -/
def execAslAcc (s : State) : Result := s.modifyA State.asl

/-- `ASL abs`, opcode 0E (R182, R122). -/
def execAslAbs (abs : Word) (s : State) : Result := s.modifyMem (.abs abs) State.asl

/-- `ASL dp,X`, opcode 16 (R182, R125). -/
def execAslDpX (dp : Byte) (s : State) : Result := s.modifyMem (.dpX dp) State.asl

/-- `ASL abs,X`, opcode 1E (R182, R127). -/
def execAslAbsX (abs : Word) (s : State) : Result := s.modifyMem (.absX abs) State.asl

/-! ### BIT (R183) -/

/-- `BIT dp`, opcode 24 (R183, R124). -/
def execBitDp (dp : Byte) (s : State) : Result := s.readA (.dp dp) State.bitMem

/-- `BIT abs`, opcode 2C (R183, R122). -/
def execBitAbs (abs : Word) (s : State) : Result := s.readA (.abs abs) State.bitMem

/-- `BIT dp,X`, opcode 34 (R183, R125). -/
def execBitDpX (dp : Byte) (s : State) : Result := s.readA (.dpX dp) State.bitMem

/-- `BIT abs,X`, opcode 3C (R183, R127). -/
def execBitAbsX (abs : Word) (s : State) : Result := s.readA (.absX abs) State.bitMem

/-- `BIT #imm`, opcode 89 (R183, R121). -/
def execBitImm (imm : Imm) (s : State) : Result := s.immA imm State.bitImm

/-! ### EOR (R184) -/

/-- `EOR (dp,X)`, opcode 41 (R184, R132). -/
def execEorDpXInd (dp : Byte) (s : State) : Result := s.readA (.dpXInd dp) State.eorA

/-- `EOR ofs,S`, opcode 43 (R184, R135). -/
def execEorSr (ofs : Byte) (s : State) : Result := s.readA (.sr ofs) State.eorA

/-- `EOR dp`, opcode 45 (R184, R124). -/
def execEorDp (dp : Byte) (s : State) : Result := s.readA (.dp dp) State.eorA

/-- `EOR [dp]`, opcode 47 (R184, R131). -/
def execEorDpIndL (dp : Byte) (s : State) : Result := s.readA (.dpIndL dp) State.eorA

/-- `EOR #imm`, opcode 49 (R184, R121). -/
def execEorImm (imm : Imm) (s : State) : Result := s.immA imm State.eorA

/-- `EOR abs`, opcode 4D (R184, R122). -/
def execEorAbs (abs : Word) (s : State) : Result := s.readA (.abs abs) State.eorA

/-- `EOR abslong`, opcode 4F (R184, R123). -/
def execEorLong (long : Addr) (s : State) : Result := s.readA (.long long) State.eorA

/-- `EOR (dp),Y`, opcode 51 (R184, R133). -/
def execEorDpIndY (dp : Byte) (s : State) : Result := s.readA (.dpIndY dp) State.eorA

/-- `EOR (dp)`, opcode 52 (R184, R130). -/
def execEorDpInd (dp : Byte) (s : State) : Result := s.readA (.dpInd dp) State.eorA

/-- `EOR (ofs,S),Y`, opcode 53 (R184, R136). -/
def execEorSrIndY (ofs : Byte) (s : State) : Result := s.readA (.srIndY ofs) State.eorA

/-- `EOR dp,X`, opcode 55 (R184, R125). -/
def execEorDpX (dp : Byte) (s : State) : Result := s.readA (.dpX dp) State.eorA

/-- `EOR [dp],Y`, opcode 57 (R184, R134). -/
def execEorDpIndLY (dp : Byte) (s : State) : Result := s.readA (.dpIndLY dp) State.eorA

/-- `EOR abs,Y`, opcode 59 (R184, R128). -/
def execEorAbsY (abs : Word) (s : State) : Result := s.readA (.absY abs) State.eorA

/-- `EOR abs,X`, opcode 5D (R184, R127). -/
def execEorAbsX (abs : Word) (s : State) : Result := s.readA (.absX abs) State.eorA

/-- `EOR abslong,X`, opcode 5F (R184, R129). -/
def execEorLongX (long : Addr) (s : State) : Result := s.readA (.longX long) State.eorA

/-! ### LSR (R185) -/

/-- `LSR dp`, opcode 46 (R185, R124). -/
def execLsrDp (dp : Byte) (s : State) : Result := s.modifyMem (.dp dp) State.lsr

/-- `LSR`, opcode 4A (R185, R137). -/
def execLsrAcc (s : State) : Result := s.modifyA State.lsr

/-- `LSR abs`, opcode 4E (R185, R122). -/
def execLsrAbs (abs : Word) (s : State) : Result := s.modifyMem (.abs abs) State.lsr

/-- `LSR dp,X`, opcode 56 (R185, R125). -/
def execLsrDpX (dp : Byte) (s : State) : Result := s.modifyMem (.dpX dp) State.lsr

/-- `LSR abs,X`, opcode 5E (R185, R127). -/
def execLsrAbsX (abs : Word) (s : State) : Result := s.modifyMem (.absX abs) State.lsr

/-! ### ORA (R186) -/

/-- `ORA (dp,X)`, opcode 01 (R186, R132). -/
def execOraDpXInd (dp : Byte) (s : State) : Result := s.readA (.dpXInd dp) State.oraA

/-- `ORA ofs,S`, opcode 03 (R186, R135). -/
def execOraSr (ofs : Byte) (s : State) : Result := s.readA (.sr ofs) State.oraA

/-- `ORA dp`, opcode 05 (R186, R124). -/
def execOraDp (dp : Byte) (s : State) : Result := s.readA (.dp dp) State.oraA

/-- `ORA [dp]`, opcode 07 (R186, R131). -/
def execOraDpIndL (dp : Byte) (s : State) : Result := s.readA (.dpIndL dp) State.oraA

/-- `ORA #imm`, opcode 09 (R186, R121). -/
def execOraImm (imm : Imm) (s : State) : Result := s.immA imm State.oraA

/-- `ORA abs`, opcode 0D (R186, R122). -/
def execOraAbs (abs : Word) (s : State) : Result := s.readA (.abs abs) State.oraA

/-- `ORA abslong`, opcode 0F (R186, R123). -/
def execOraLong (long : Addr) (s : State) : Result := s.readA (.long long) State.oraA

/-- `ORA (dp),Y`, opcode 11 (R186, R133). -/
def execOraDpIndY (dp : Byte) (s : State) : Result := s.readA (.dpIndY dp) State.oraA

/-- `ORA (dp)`, opcode 12 (R186, R130). -/
def execOraDpInd (dp : Byte) (s : State) : Result := s.readA (.dpInd dp) State.oraA

/-- `ORA (ofs,S),Y`, opcode 13 (R186, R136). -/
def execOraSrIndY (ofs : Byte) (s : State) : Result := s.readA (.srIndY ofs) State.oraA

/-- `ORA dp,X`, opcode 15 (R186, R125). -/
def execOraDpX (dp : Byte) (s : State) : Result := s.readA (.dpX dp) State.oraA

/-- `ORA [dp],Y`, opcode 17 (R186, R134). -/
def execOraDpIndLY (dp : Byte) (s : State) : Result := s.readA (.dpIndLY dp) State.oraA

/-- `ORA abs,Y`, opcode 19 (R186, R128). -/
def execOraAbsY (abs : Word) (s : State) : Result := s.readA (.absY abs) State.oraA

/-- `ORA abs,X`, opcode 1D (R186, R127). -/
def execOraAbsX (abs : Word) (s : State) : Result := s.readA (.absX abs) State.oraA

/-- `ORA abslong,X`, opcode 1F (R186, R129). -/
def execOraLongX (long : Addr) (s : State) : Result := s.readA (.longX long) State.oraA

/-! ### ROL (R187) -/

/-- `ROL dp`, opcode 26 (R187, R124). -/
def execRolDp (dp : Byte) (s : State) : Result := s.modifyMem (.dp dp) State.rol

/-- `ROL`, opcode 2A (R187, R137). -/
def execRolAcc (s : State) : Result := s.modifyA State.rol

/-- `ROL abs`, opcode 2E (R187, R122). -/
def execRolAbs (abs : Word) (s : State) : Result := s.modifyMem (.abs abs) State.rol

/-- `ROL dp,X`, opcode 36 (R187, R125). -/
def execRolDpX (dp : Byte) (s : State) : Result := s.modifyMem (.dpX dp) State.rol

/-- `ROL abs,X`, opcode 3E (R187, R127). -/
def execRolAbsX (abs : Word) (s : State) : Result := s.modifyMem (.absX abs) State.rol

/-! ### ROR (R189) -/

/-- `ROR dp`, opcode 66 (R189, R124). -/
def execRorDp (dp : Byte) (s : State) : Result := s.modifyMem (.dp dp) State.ror

/-- `ROR`, opcode 6A (R189, R137). -/
def execRorAcc (s : State) : Result := s.modifyA State.ror

/-- `ROR abs`, opcode 6E (R189, R122). -/
def execRorAbs (abs : Word) (s : State) : Result := s.modifyMem (.abs abs) State.ror

/-- `ROR dp,X`, opcode 76 (R189, R125). -/
def execRorDpX (dp : Byte) (s : State) : Result := s.modifyMem (.dpX dp) State.ror

/-- `ROR abs,X`, opcode 7E (R189, R127). -/
def execRorAbsX (abs : Word) (s : State) : Result := s.modifyMem (.absX abs) State.ror

/-! ### TRB (R190) -/

/-- `TRB dp`, opcode 14 (R190, R124). -/
def execTrbDp (dp : Byte) (s : State) : Result := s.testBits (.dp dp) (fun a v => v &&& ~~~a)

/-- `TRB abs`, opcode 1C (R190, R122). -/
def execTrbAbs (abs : Word) (s : State) : Result := s.testBits (.abs abs) (fun a v => v &&& ~~~a)

/-! ### TSB (R191) -/

/-- `TSB dp`, opcode 04 (R191, R124). -/
def execTsbDp (dp : Byte) (s : State) : Result := s.testBits (.dp dp) (fun a v => v ||| a)

/-- `TSB abs`, opcode 0C (R191, R122). -/
def execTsbAbs (abs : Word) (s : State) : Result := s.testBits (.abs abs) (fun a v => v ||| a)

end Sys2Proof.Machine
end

