-- ==== Sys2Proof/Machine/Stack.lean ====
section
/-! DEFINITION. Stack push and pull instructions (spec file 48_stack.md). -/

namespace Sys2Proof.Machine

/-- The word a PEI pushes (R301): read in bank 0 at `DirectAddr(dp, false)`, with no page wrap. -/
def State.readWordDirect (s : State) (dp : Byte) : Word := s.readB0 .pointer (s.d + dp.setWidth 16)

/-- PEA, PEI and PER (R300 to R302): a word pushed with the 16-bit stack primitives, then `Normalize`. -/
def State.pushEffective (len : Nat) (v : Word) (s : State) : Result :=
  .next ((s.advance len).pushN16 v).normalize

/-! ### PEA (R300) -/

/-- `PEA abs`, opcode F4 (R300, R121). -/
def execPea (imm : Word) (s : State) : Result := s.pushEffective 3 imm

/-! ### PEI (R301) -/

/-- `PEI (dp)`, opcode D4 (R301). -/
def execPei (dp : Byte) (s : State) : Result := s.pushEffective 2 (s.readWordDirect dp)

/-! ### PER (R302) -/

/-- `PER relword`, opcode 62 (R302, R140). -/
def execPer (rel : Word) (s : State) : Result := s.pushEffective 3 (s.pc + 3 + rel)

/-! ### PHA (R303) -/

/-- `PHA`, opcode 48 (R303). -/
def execPha (s : State) : Result := .next ((s.advance 1).pushW s.wA s.c)

/-! ### PHB (R304) -/

/-- `PHB`, opcode 8B (R304). -/
def execPhb (s : State) : Result := .next ((s.advance 1).push8 s.dbr)

/-! ### PHD (R305) -/

/-- `PHD`, opcode 0B (R305). -/
def execPhd (s : State) : Result := .next ((s.advance 1).pushN16 s.d).normalize

/-! ### PHK (R306) -/

/-- `PHK`, opcode 4B (R306). -/
def execPhk (s : State) : Result := .next ((s.advance 1).push8 s.pbr)

/-! ### PHP (R307) -/

/-- `PHP`, opcode 08 (R307). -/
def execPhp (s : State) : Result := .next ((s.advance 1).push8 s.p)

/-! ### PHX (R308) -/

/-- `PHX`, opcode DA (R308). -/
def execPhx (s : State) : Result := .next ((s.advance 1).pushW s.wX s.x)

/-! ### PHY (R309) -/

/-- `PHY`, opcode 5A (R309). -/
def execPhy (s : State) : Result := .next ((s.advance 1).pushW s.wX s.y)

/-! ### PLA (R310) -/

/-- `PLA`, opcode 68 (R310). -/
def execPla (s : State) : Result :=
  let r := (s.advance 1).pullW s.wA
  .next ((r.2.setA s.wA r.1).setNZ s.wA r.1)

/-! ### PLB (R311) -/

/-- `PLB`, opcode AB (R311). -/
def execPlb (s : State) : Result :=
  let r := (s.advance 1).pull8
  .next ((r.2.setDBR r.1).setNZ .w8 (r.1.setWidth 16))

/-! ### PLD (R312) -/

/-- `PLD`, opcode 2B (R312). -/
def execPld (s : State) : Result :=
  let r := (s.advance 1).pullN16
  .next ((r.2.setD r.1).setNZ .w16 r.1).normalize

/-! ### PLP (R313) -/

/-- `PLP`, opcode 28 (R313). -/
def execPlp (s : State) : Result :=
  let r := (s.advance 1).pull8
  .next (r.2.setP r.1)

/-! ### PLX (R314) -/

/-- `PLX`, opcode FA (R314). -/
def execPlx (s : State) : Result :=
  let r := (s.advance 1).pullW s.wX
  .next ((r.2.setX s.wX r.1).setNZ s.wX r.1)

/-! ### PLY (R315) -/

/-- `PLY`, opcode 7A (R315). -/
def execPly (s : State) : Result :=
  let r := (s.advance 1).pullW s.wX
  .next ((r.2.setY s.wX r.1).setNZ s.wX r.1)

end Sys2Proof.Machine
end

