-- ==== Sys2Proof/Machine/Status.lean ====
section
/-! DEFINITION. Status-register and mode instructions (spec file 45_status_flags.md). -/

namespace Sys2Proof.Machine

/-- XCE (R259): carry and `E` change places, then `Normalize`. -/
def State.exchangeCE (s : State) : State := State.normalize { s.setFlag .c s.e with e := s.flag .c }

/-! ### CLC (R250) -/

/-- `CLC`, opcode 18 (R250). -/
def execClc (s : State) : Result := .next ((s.advance 1).setFlag .c false)

/-! ### CLD (R251) -/

/-- `CLD`, opcode D8 (R251). -/
def execCld (s : State) : Result := .next ((s.advance 1).setFlag .d false)

/-! ### CLI (R252) -/

/-- `CLI`, opcode 58 (R252). -/
def execCli (s : State) : Result := .next ((s.advance 1).setFlag .i false)

/-! ### CLV (R253) -/

/-- `CLV`, opcode B8 (R253). -/
def execClv (s : State) : Result := .next ((s.advance 1).setFlag .v false)

/-! ### REP (R254) -/

/-- `REP #imm`, opcode C2 (R254, R121). -/
def execRep (imm : Byte) (s : State) : Result := .next ((s.advance 2).setP (s.p &&& ~~~imm))

/-! ### SEC (R255) -/

/-- `SEC`, opcode 38 (R255). -/
def execSec (s : State) : Result := .next ((s.advance 1).setFlag .c true)

/-! ### SED (R256) -/

/-- `SED`, opcode F8 (R256). -/
def execSed (s : State) : Result := .next ((s.advance 1).setFlag .d true)

/-! ### SEI (R257) -/

/-- `SEI`, opcode 78 (R257). -/
def execSei (s : State) : Result := .next ((s.advance 1).setFlag .i true)

/-! ### SEP (R258) -/

/-- `SEP #imm`, opcode E2 (R258, R121). -/
def execSep (imm : Byte) (s : State) : Result := .next ((s.advance 2).setP (s.p ||| imm))

/-! ### XCE (R259) -/

/-- `XCE`, opcode FB (R259). -/
def execXce (s : State) : Result := .next (s.advance 1).exchangeCE

end Sys2Proof.Machine
end

