-- ==== Sys2Proof/Machine/System.lean ====
section
/-! DEFINITION. System instructions: the software interrupts, the return from interrupt, stop, wait, no-operation and the reserved
opcode (spec file 44_system.md). -/

namespace Sys2Proof.Machine

/-- STP (R234): only reset leaves this state. -/
def State.stop (s : State) : State := { s with stopped := true }

/-- WAI (R235): an interrupt source or reset leaves this state. -/
def State.wait (s : State) : State := { s with waiting := true }

/-! ### BRK (R230) -/

/-- `BRK byte`, opcode 00 (R230). `PC` is past the signature byte when the frame is pushed. -/
def execBrk (_sig : Byte) (s : State) : Result := .next ((s.advance 2).interrupt .brk)

/-! ### COP (R231) -/

/-- `COP byte`, opcode 02 (R231). `PC` is past the signature byte when the frame is pushed. -/
def execCop (_sig : Byte) (s : State) : Result := .next ((s.advance 2).interrupt .cop)

/-! ### NOP (R232) -/

/-- `NOP`, opcode EA (R232). -/
def execNop (s : State) : Result := .next (s.advance 1)

/-! ### RTI (R233) -/

/-- `RTI`, opcode 40 (R233). -/
def execRti (s : State) : Result := .next (s.advance 1).returnFromInterrupt

/-! ### STP (R234) -/

/-- `STP`, opcode DB (R234). -/
def execStp (s : State) : Result := .next (s.advance 1).stop

/-! ### WAI (R235) -/

/-- `WAI`, opcode CB (R235). -/
def execWai (s : State) : Result := .next (s.advance 1).wait

/-! ### WDM (R236) -/

/-- `WDM`, opcode 42 (R236). The reserved opcode skips one byte (D4). -/
def execWdm (_sig : Byte) (s : State) : Result := .next (s.advance 2)

end Sys2Proof.Machine
end

