-- ==== Sys2Proof/Machine/Transfer.lean ====
section
/-! DEFINITION. Register transfer and exchange instructions (spec file 49_transfer.md). -/

namespace Sys2Proof.Machine

/-- XBA (R332): the halves of the accumulator change places; n and z from the new `A`, at width 8. -/
def State.exchangeBA (s : State) : State :=
  let c := word16 (hiByte s.c) (loByte s.c)
  { s with c := c }.setNZ .w8 (trunc .w8 c)

/-! ### TAX (R320) -/

/-- `TAX`, opcode AA (R320). -/
def execTax (s : State) : Result := s.loadX s.c

/-! ### TAY (R321) -/

/-- `TAY`, opcode A8 (R321). -/
def execTay (s : State) : Result := s.loadY s.c

/-! ### TCD (R322) -/

/-- `TCD`, opcode 5B (R322). -/
def execTcd (s : State) : Result := .next (((s.advance 1).setD s.c).setNZ .w16 s.c)

/-! ### TCS (R323) -/

/-- `TCS`, opcode 1B (R323). -/
def execTcs (s : State) : Result := .next ((s.advance 1).setS s.c).normalize

/-! ### TDC (R324) -/

/-- `TDC`, opcode 7B (R324). -/
def execTdc (s : State) : Result := s.loadA .w16 s.d

/-! ### TSC (R325) -/

/-- `TSC`, opcode 3B (R325). -/
def execTsc (s : State) : Result := s.loadA .w16 s.s

/-! ### TSX (R326) -/

/-- `TSX`, opcode BA (R326). -/
def execTsx (s : State) : Result := s.loadX s.s

/-! ### TXA (R327) -/

/-- `TXA`, opcode 8A (R327). -/
def execTxa (s : State) : Result := s.loadA s.wA s.x

/-! ### TXS (R328) -/

/-- `TXS`, opcode 9A (R328). -/
def execTxs (s : State) : Result := .next ((s.advance 1).setS s.x).normalize

/-! ### TXY (R329) -/

/-- `TXY`, opcode 9B (R329). -/
def execTxy (s : State) : Result := s.loadY s.x

/-! ### TYA (R330) -/

/-- `TYA`, opcode 98 (R330). -/
def execTya (s : State) : Result := s.loadA s.wA s.y

/-! ### TYX (R331) -/

/-- `TYX`, opcode BB (R331). -/
def execTyx (s : State) : Result := s.loadX s.y

/-! ### XBA (R332) -/

/-- `XBA`, opcode EB (R332). -/
def execXba (s : State) : Result := .next (s.advance 1).exchangeBA

end Sys2Proof.Machine
end

