-- ==== Sys2Proof/Machine/Dispatch.lean ====
section
/-! DEFINITION. One arm for each instruction, each a call of its meaning. -/

namespace Sys2Proof.Machine

/-- The meaning of an instruction at a state whose `PC` is at its opcode byte. -/
def exec (i : Instr) (s : State) : Host.Outcome State Fault Refusal :=
  match i with
  | .brk sig => Sys2Proof.Machine.execBrk sig s
  | .oraDpXInd dp => Sys2Proof.Machine.execOraDpXInd dp s
  | .cop sig => Sys2Proof.Machine.execCop sig s
  | .oraSr ofs => Sys2Proof.Machine.execOraSr ofs s
  | .tsbDp dp => Sys2Proof.Machine.execTsbDp dp s
  | .oraDp dp => Sys2Proof.Machine.execOraDp dp s
  | .aslDp dp => Sys2Proof.Machine.execAslDp dp s
  | .oraDpIndL dp => Sys2Proof.Machine.execOraDpIndL dp s
  | .oraImm imm => Sys2Proof.Machine.execOraImm imm s
  | .tsbAbs abs => Sys2Proof.Machine.execTsbAbs abs s
  | .oraAbs abs => Sys2Proof.Machine.execOraAbs abs s
  | .aslAbs abs => Sys2Proof.Machine.execAslAbs abs s
  | .oraLong long => Sys2Proof.Machine.execOraLong long s
  | .bpl rel => Sys2Proof.Machine.execBpl rel s
  | .oraDpIndY dp => Sys2Proof.Machine.execOraDpIndY dp s
  | .oraDpInd dp => Sys2Proof.Machine.execOraDpInd dp s
  | .oraSrIndY ofs => Sys2Proof.Machine.execOraSrIndY ofs s
  | .trbDp dp => Sys2Proof.Machine.execTrbDp dp s
  | .oraDpX dp => Sys2Proof.Machine.execOraDpX dp s
  | .aslDpX dp => Sys2Proof.Machine.execAslDpX dp s
  | .oraDpIndLY dp => Sys2Proof.Machine.execOraDpIndLY dp s
  | .oraAbsY abs => Sys2Proof.Machine.execOraAbsY abs s
  | .trbAbs abs => Sys2Proof.Machine.execTrbAbs abs s
  | .oraAbsX abs => Sys2Proof.Machine.execOraAbsX abs s
  | .aslAbsX abs => Sys2Proof.Machine.execAslAbsX abs s
  | .oraLongX long => Sys2Proof.Machine.execOraLongX long s
  | .jsrAbs abs => Sys2Proof.Machine.execJsrAbs abs s
  | .andDpXInd dp => Sys2Proof.Machine.execAndDpXInd dp s
  | .jsl long => Sys2Proof.Machine.execJsl long s
  | .andSr ofs => Sys2Proof.Machine.execAndSr ofs s
  | .bitDp dp => Sys2Proof.Machine.execBitDp dp s
  | .andDp dp => Sys2Proof.Machine.execAndDp dp s
  | .rolDp dp => Sys2Proof.Machine.execRolDp dp s
  | .andDpIndL dp => Sys2Proof.Machine.execAndDpIndL dp s
  | .andImm imm => Sys2Proof.Machine.execAndImm imm s
  | .bitAbs abs => Sys2Proof.Machine.execBitAbs abs s
  | .andAbs abs => Sys2Proof.Machine.execAndAbs abs s
  | .rolAbs abs => Sys2Proof.Machine.execRolAbs abs s
  | .andLong long => Sys2Proof.Machine.execAndLong long s
  | .bmi rel => Sys2Proof.Machine.execBmi rel s
  | .andDpIndY dp => Sys2Proof.Machine.execAndDpIndY dp s
  | .andDpInd dp => Sys2Proof.Machine.execAndDpInd dp s
  | .andSrIndY ofs => Sys2Proof.Machine.execAndSrIndY ofs s
  | .bitDpX dp => Sys2Proof.Machine.execBitDpX dp s
  | .andDpX dp => Sys2Proof.Machine.execAndDpX dp s
  | .rolDpX dp => Sys2Proof.Machine.execRolDpX dp s
  | .andDpIndLY dp => Sys2Proof.Machine.execAndDpIndLY dp s
  | .andAbsY abs => Sys2Proof.Machine.execAndAbsY abs s
  | .bitAbsX abs => Sys2Proof.Machine.execBitAbsX abs s
  | .andAbsX abs => Sys2Proof.Machine.execAndAbsX abs s
  | .rolAbsX abs => Sys2Proof.Machine.execRolAbsX abs s
  | .andLongX long => Sys2Proof.Machine.execAndLongX long s
  | .eorDpXInd dp => Sys2Proof.Machine.execEorDpXInd dp s
  | .wdm sig => Sys2Proof.Machine.execWdm sig s
  | .eorSr ofs => Sys2Proof.Machine.execEorSr ofs s
  | .mvp dstbank srcbank => Sys2Proof.Machine.execMvp dstbank srcbank s
  | .eorDp dp => Sys2Proof.Machine.execEorDp dp s
  | .lsrDp dp => Sys2Proof.Machine.execLsrDp dp s
  | .eorDpIndL dp => Sys2Proof.Machine.execEorDpIndL dp s
  | .eorImm imm => Sys2Proof.Machine.execEorImm imm s
  | .jmpAbs abs => Sys2Proof.Machine.execJmpAbs abs s
  | .eorAbs abs => Sys2Proof.Machine.execEorAbs abs s
  | .lsrAbs abs => Sys2Proof.Machine.execLsrAbs abs s
  | .eorLong long => Sys2Proof.Machine.execEorLong long s
  | .bvc rel => Sys2Proof.Machine.execBvc rel s
  | .eorDpIndY dp => Sys2Proof.Machine.execEorDpIndY dp s
  | .eorDpInd dp => Sys2Proof.Machine.execEorDpInd dp s
  | .eorSrIndY ofs => Sys2Proof.Machine.execEorSrIndY ofs s
  | .mvn dstbank srcbank => Sys2Proof.Machine.execMvn dstbank srcbank s
  | .eorDpX dp => Sys2Proof.Machine.execEorDpX dp s
  | .lsrDpX dp => Sys2Proof.Machine.execLsrDpX dp s
  | .eorDpIndLY dp => Sys2Proof.Machine.execEorDpIndLY dp s
  | .eorAbsY abs => Sys2Proof.Machine.execEorAbsY abs s
  | .jmlLong long => Sys2Proof.Machine.execJmlLong long s
  | .eorAbsX abs => Sys2Proof.Machine.execEorAbsX abs s
  | .lsrAbsX abs => Sys2Proof.Machine.execLsrAbsX abs s
  | .eorLongX long => Sys2Proof.Machine.execEorLongX long s
  | .adcDpXInd dp => Sys2Proof.Machine.execAdcDpXInd dp s
  | .per rel => Sys2Proof.Machine.execPer rel s
  | .adcSr ofs => Sys2Proof.Machine.execAdcSr ofs s
  | .stzDp dp => Sys2Proof.Machine.execStzDp dp s
  | .adcDp dp => Sys2Proof.Machine.execAdcDp dp s
  | .rorDp dp => Sys2Proof.Machine.execRorDp dp s
  | .adcDpIndL dp => Sys2Proof.Machine.execAdcDpIndL dp s
  | .adcImm imm => Sys2Proof.Machine.execAdcImm imm s
  | .jmpAbsInd abs => Sys2Proof.Machine.execJmpAbsInd abs s
  | .adcAbs abs => Sys2Proof.Machine.execAdcAbs abs s
  | .rorAbs abs => Sys2Proof.Machine.execRorAbs abs s
  | .adcLong long => Sys2Proof.Machine.execAdcLong long s
  | .bvs rel => Sys2Proof.Machine.execBvs rel s
  | .adcDpIndY dp => Sys2Proof.Machine.execAdcDpIndY dp s
  | .adcDpInd dp => Sys2Proof.Machine.execAdcDpInd dp s
  | .adcSrIndY ofs => Sys2Proof.Machine.execAdcSrIndY ofs s
  | .stzDpX dp => Sys2Proof.Machine.execStzDpX dp s
  | .adcDpX dp => Sys2Proof.Machine.execAdcDpX dp s
  | .rorDpX dp => Sys2Proof.Machine.execRorDpX dp s
  | .adcDpIndLY dp => Sys2Proof.Machine.execAdcDpIndLY dp s
  | .adcAbsY abs => Sys2Proof.Machine.execAdcAbsY abs s
  | .jmpAbsXInd abs => Sys2Proof.Machine.execJmpAbsXInd abs s
  | .adcAbsX abs => Sys2Proof.Machine.execAdcAbsX abs s
  | .rorAbsX abs => Sys2Proof.Machine.execRorAbsX abs s
  | .adcLongX long => Sys2Proof.Machine.execAdcLongX long s
  | .bra rel => Sys2Proof.Machine.execBra rel s
  | .staDpXInd dp => Sys2Proof.Machine.execStaDpXInd dp s
  | .brl rel => Sys2Proof.Machine.execBrl rel s
  | .staSr ofs => Sys2Proof.Machine.execStaSr ofs s
  | .styDp dp => Sys2Proof.Machine.execStyDp dp s
  | .staDp dp => Sys2Proof.Machine.execStaDp dp s
  | .stxDp dp => Sys2Proof.Machine.execStxDp dp s
  | .staDpIndL dp => Sys2Proof.Machine.execStaDpIndL dp s
  | .bitImm imm => Sys2Proof.Machine.execBitImm imm s
  | .styAbs abs => Sys2Proof.Machine.execStyAbs abs s
  | .staAbs abs => Sys2Proof.Machine.execStaAbs abs s
  | .stxAbs abs => Sys2Proof.Machine.execStxAbs abs s
  | .staLong long => Sys2Proof.Machine.execStaLong long s
  | .bcc rel => Sys2Proof.Machine.execBcc rel s
  | .staDpIndY dp => Sys2Proof.Machine.execStaDpIndY dp s
  | .staDpInd dp => Sys2Proof.Machine.execStaDpInd dp s
  | .staSrIndY ofs => Sys2Proof.Machine.execStaSrIndY ofs s
  | .styDpX dp => Sys2Proof.Machine.execStyDpX dp s
  | .staDpX dp => Sys2Proof.Machine.execStaDpX dp s
  | .stxDpY dp => Sys2Proof.Machine.execStxDpY dp s
  | .staDpIndLY dp => Sys2Proof.Machine.execStaDpIndLY dp s
  | .staAbsY abs => Sys2Proof.Machine.execStaAbsY abs s
  | .stzAbs abs => Sys2Proof.Machine.execStzAbs abs s
  | .staAbsX abs => Sys2Proof.Machine.execStaAbsX abs s
  | .stzAbsX abs => Sys2Proof.Machine.execStzAbsX abs s
  | .staLongX long => Sys2Proof.Machine.execStaLongX long s
  | .ldyImm imm => Sys2Proof.Machine.execLdyImm imm s
  | .ldaDpXInd dp => Sys2Proof.Machine.execLdaDpXInd dp s
  | .ldxImm imm => Sys2Proof.Machine.execLdxImm imm s
  | .ldaSr ofs => Sys2Proof.Machine.execLdaSr ofs s
  | .ldyDp dp => Sys2Proof.Machine.execLdyDp dp s
  | .ldaDp dp => Sys2Proof.Machine.execLdaDp dp s
  | .ldxDp dp => Sys2Proof.Machine.execLdxDp dp s
  | .ldaDpIndL dp => Sys2Proof.Machine.execLdaDpIndL dp s
  | .ldaImm imm => Sys2Proof.Machine.execLdaImm imm s
  | .ldyAbs abs => Sys2Proof.Machine.execLdyAbs abs s
  | .ldaAbs abs => Sys2Proof.Machine.execLdaAbs abs s
  | .ldxAbs abs => Sys2Proof.Machine.execLdxAbs abs s
  | .ldaLong long => Sys2Proof.Machine.execLdaLong long s
  | .bcs rel => Sys2Proof.Machine.execBcs rel s
  | .ldaDpIndY dp => Sys2Proof.Machine.execLdaDpIndY dp s
  | .ldaDpInd dp => Sys2Proof.Machine.execLdaDpInd dp s
  | .ldaSrIndY ofs => Sys2Proof.Machine.execLdaSrIndY ofs s
  | .ldyDpX dp => Sys2Proof.Machine.execLdyDpX dp s
  | .ldaDpX dp => Sys2Proof.Machine.execLdaDpX dp s
  | .ldxDpY dp => Sys2Proof.Machine.execLdxDpY dp s
  | .ldaDpIndLY dp => Sys2Proof.Machine.execLdaDpIndLY dp s
  | .ldaAbsY abs => Sys2Proof.Machine.execLdaAbsY abs s
  | .ldyAbsX abs => Sys2Proof.Machine.execLdyAbsX abs s
  | .ldaAbsX abs => Sys2Proof.Machine.execLdaAbsX abs s
  | .ldxAbsY abs => Sys2Proof.Machine.execLdxAbsY abs s
  | .ldaLongX long => Sys2Proof.Machine.execLdaLongX long s
  | .cpyImm imm => Sys2Proof.Machine.execCpyImm imm s
  | .cmpDpXInd dp => Sys2Proof.Machine.execCmpDpXInd dp s
  | .rep imm => Sys2Proof.Machine.execRep imm s
  | .cmpSr ofs => Sys2Proof.Machine.execCmpSr ofs s
  | .cpyDp dp => Sys2Proof.Machine.execCpyDp dp s
  | .cmpDp dp => Sys2Proof.Machine.execCmpDp dp s
  | .decDp dp => Sys2Proof.Machine.execDecDp dp s
  | .cmpDpIndL dp => Sys2Proof.Machine.execCmpDpIndL dp s
  | .cmpImm imm => Sys2Proof.Machine.execCmpImm imm s
  | .cpyAbs abs => Sys2Proof.Machine.execCpyAbs abs s
  | .cmpAbs abs => Sys2Proof.Machine.execCmpAbs abs s
  | .decAbs abs => Sys2Proof.Machine.execDecAbs abs s
  | .cmpLong long => Sys2Proof.Machine.execCmpLong long s
  | .bne rel => Sys2Proof.Machine.execBne rel s
  | .cmpDpIndY dp => Sys2Proof.Machine.execCmpDpIndY dp s
  | .cmpDpInd dp => Sys2Proof.Machine.execCmpDpInd dp s
  | .cmpSrIndY ofs => Sys2Proof.Machine.execCmpSrIndY ofs s
  | .pei dp => Sys2Proof.Machine.execPei dp s
  | .cmpDpX dp => Sys2Proof.Machine.execCmpDpX dp s
  | .decDpX dp => Sys2Proof.Machine.execDecDpX dp s
  | .cmpDpIndLY dp => Sys2Proof.Machine.execCmpDpIndLY dp s
  | .cmpAbsY abs => Sys2Proof.Machine.execCmpAbsY abs s
  | .jmlAbsIndL abs => Sys2Proof.Machine.execJmlAbsIndL abs s
  | .cmpAbsX abs => Sys2Proof.Machine.execCmpAbsX abs s
  | .decAbsX abs => Sys2Proof.Machine.execDecAbsX abs s
  | .cmpLongX long => Sys2Proof.Machine.execCmpLongX long s
  | .cpxImm imm => Sys2Proof.Machine.execCpxImm imm s
  | .sbcDpXInd dp => Sys2Proof.Machine.execSbcDpXInd dp s
  | .sep imm => Sys2Proof.Machine.execSep imm s
  | .sbcSr ofs => Sys2Proof.Machine.execSbcSr ofs s
  | .cpxDp dp => Sys2Proof.Machine.execCpxDp dp s
  | .sbcDp dp => Sys2Proof.Machine.execSbcDp dp s
  | .incDp dp => Sys2Proof.Machine.execIncDp dp s
  | .sbcDpIndL dp => Sys2Proof.Machine.execSbcDpIndL dp s
  | .sbcImm imm => Sys2Proof.Machine.execSbcImm imm s
  | .cpxAbs abs => Sys2Proof.Machine.execCpxAbs abs s
  | .sbcAbs abs => Sys2Proof.Machine.execSbcAbs abs s
  | .incAbs abs => Sys2Proof.Machine.execIncAbs abs s
  | .sbcLong long => Sys2Proof.Machine.execSbcLong long s
  | .beq rel => Sys2Proof.Machine.execBeq rel s
  | .sbcDpIndY dp => Sys2Proof.Machine.execSbcDpIndY dp s
  | .sbcDpInd dp => Sys2Proof.Machine.execSbcDpInd dp s
  | .sbcSrIndY ofs => Sys2Proof.Machine.execSbcSrIndY ofs s
  | .pea imm => Sys2Proof.Machine.execPea imm s
  | .sbcDpX dp => Sys2Proof.Machine.execSbcDpX dp s
  | .incDpX dp => Sys2Proof.Machine.execIncDpX dp s
  | .sbcDpIndLY dp => Sys2Proof.Machine.execSbcDpIndLY dp s
  | .sbcAbsY abs => Sys2Proof.Machine.execSbcAbsY abs s
  | .jsrAbsXInd abs => Sys2Proof.Machine.execJsrAbsXInd abs s
  | .sbcAbsX abs => Sys2Proof.Machine.execSbcAbsX abs s
  | .incAbsX abs => Sys2Proof.Machine.execIncAbsX abs s
  | .sbcLongX long => Sys2Proof.Machine.execSbcLongX long s
  | .php => Sys2Proof.Machine.execPhp s
  | .aslAcc => Sys2Proof.Machine.execAslAcc s
  | .phd => Sys2Proof.Machine.execPhd s
  | .clc => Sys2Proof.Machine.execClc s
  | .incAcc => Sys2Proof.Machine.execIncAcc s
  | .tcs => Sys2Proof.Machine.execTcs s
  | .plp => Sys2Proof.Machine.execPlp s
  | .rolAcc => Sys2Proof.Machine.execRolAcc s
  | .pld => Sys2Proof.Machine.execPld s
  | .sec => Sys2Proof.Machine.execSec s
  | .decAcc => Sys2Proof.Machine.execDecAcc s
  | .tsc => Sys2Proof.Machine.execTsc s
  | .rti => Sys2Proof.Machine.execRti s
  | .pha => Sys2Proof.Machine.execPha s
  | .lsrAcc => Sys2Proof.Machine.execLsrAcc s
  | .phk => Sys2Proof.Machine.execPhk s
  | .cli => Sys2Proof.Machine.execCli s
  | .phy => Sys2Proof.Machine.execPhy s
  | .tcd => Sys2Proof.Machine.execTcd s
  | .rts => Sys2Proof.Machine.execRts s
  | .pla => Sys2Proof.Machine.execPla s
  | .rorAcc => Sys2Proof.Machine.execRorAcc s
  | .rtl => Sys2Proof.Machine.execRtl s
  | .sei => Sys2Proof.Machine.execSei s
  | .ply => Sys2Proof.Machine.execPly s
  | .tdc => Sys2Proof.Machine.execTdc s
  | .dey => Sys2Proof.Machine.execDey s
  | .txa => Sys2Proof.Machine.execTxa s
  | .phb => Sys2Proof.Machine.execPhb s
  | .tya => Sys2Proof.Machine.execTya s
  | .txs => Sys2Proof.Machine.execTxs s
  | .txy => Sys2Proof.Machine.execTxy s
  | .tay => Sys2Proof.Machine.execTay s
  | .tax => Sys2Proof.Machine.execTax s
  | .plb => Sys2Proof.Machine.execPlb s
  | .clv => Sys2Proof.Machine.execClv s
  | .tsx => Sys2Proof.Machine.execTsx s
  | .tyx => Sys2Proof.Machine.execTyx s
  | .iny => Sys2Proof.Machine.execIny s
  | .dex => Sys2Proof.Machine.execDex s
  | .wai => Sys2Proof.Machine.execWai s
  | .cld => Sys2Proof.Machine.execCld s
  | .phx => Sys2Proof.Machine.execPhx s
  | .stp => Sys2Proof.Machine.execStp s
  | .inx => Sys2Proof.Machine.execInx s
  | .nop => Sys2Proof.Machine.execNop s
  | .xba => Sys2Proof.Machine.execXba s
  | .sed => Sys2Proof.Machine.execSed s
  | .plx => Sys2Proof.Machine.execPlx s
  | .xce => Sys2Proof.Machine.execXce s

end Sys2Proof.Machine
end

