-- ==== Sys2Proof/Machine/Events.lean ====
section
/-! DEFINITION. What happens at an instruction boundary: the host inputs are sampled and at most one event is served,
in the order of rule R349 (R343, R344, R346, R347, R353, R381). The platform's answers at device addresses
are taken in with the inputs (R61). -/

namespace Sys2Proof.Machine

/-- The inputs of this step: the head of the schedule, none asserted when it is empty (log entry 3). -/
def State.input (s : State) : HostInput := s.inputs.headD HostInput.idle

/-- The draw number after a step has taken one for the platform's answers that are not named, if there is a device
address (log entry 9). -/
def State.answerDraws (s : State) : Nat := if s.ioRegion.isEmpty then s.draws else s.draws + 1

/-- The inputs of this step taken in: the platform's answers of this step stand ready (R61, log entry 9), and the
schedule is moved on by one step. -/
def State.nextInput (s : State) : State :=
  { s with io := s.input.io, inputs := s.inputs.tail, draws := s.answerDraws }

/-- `NmiPending` after an NMI edge (R344). -/
def State.latchNmi (edge : Bool) (s : State) : State := { s with nmiPending := s.nmiPending || edge }

/-- `Waiting` cleared (R353). -/
def State.wake (s : State) : State := { s with waiting := false }

/-- The interrupt that is taken at this boundary, if any: NMI before IRQ, and IRQ only with `P.i = 0` (R347, R349). -/
def State.pendingEvent (irq : Bool) (s : State) : Option Event :=
  if s.nmiPending then some .nmi
  else if irq && !s.flag .i then some .irq
  else none

/-- What the boundary does before the fetch (R349). -/
inductive Boundary
  /-- The step ends in this state: a reset, a stopped or waiting processor, or an interrupt taken. -/
  | done (s : State)
  /-- The step executes the instruction at this state's `PBR:PC`. -/
  | execute (s : State)
deriving DecidableEq, Repr

/-- The boundary when the processor is neither reset nor stopped, with the NMI edge latched (R349, R353). -/
def State.sample (irq : Bool) (s : State) : Boundary :=
  if s.waiting && !(s.nmiPending || irq) then .done s
  else
    let t := s.wake
    match t.pendingEvent irq with
    | some k => .done (t.interrupt k)
    | none => .execute t

/-- The boundary of one step (R349). -/
def State.boundary (s : State) : Boundary :=
  let t := s.nextInput
  if s.input.reset then .done t.resetEvent
  else if s.stopped then .done t
  else (t.latchNmi s.input.nmi).sample s.input.irq

end Sys2Proof.Machine
end

