-- ==== Sys2Proof/Machine/Fetch.lean ====
section
/-! DEFINITION. Fetching an instruction's bytes (R66), and placing them where they are fetched. -/

namespace Sys2Proof.Machine

/-- The byte at offset `PC + k` of the program bank (R66, R28). -/
def State.instrByte (s : State) (k : Nat) : Byte := s.readByte .fetch (bankAddr s.pbr (s.pc + BitVec.ofNat 16 k))

/-- The four bytes from `PBR:PC` on, each as it stands when the processor fetches it. All are fetched before the first
data access, but for JSL, which pushes `PBR` before its last operand byte, and JSR `(abs,X)`, which pushes the return
address before it (R66, R213, R214): those bytes are read after the pushes. Bytes past the instruction's end are not
used. -/
def State.fetchBytes (s : State) : List Byte :=
  let op := s.instrByte 0
  if op = 0x22 then [op, s.instrByte 1, s.instrByte 2, (s.pushN8 s.pbr).instrByte 3]
  else if op = 0xFC then [op, s.instrByte 1, (s.pushN16 (s.pc + 2)).instrByte 2, s.instrByte 3]
  else [op, s.instrByte 1, s.instrByte 2, s.instrByte 3]

/-- A list of bytes as the platform's answers to the fetches at offset `PC + k` of the program bank and on, those at
device addresses (R61). -/
def State.fetchAnswers (s : State) : List Byte → Nat → List Answer
  | [], _ => []
  | b :: rest, k =>
    let a := bankAddr s.pbr (s.pc + BitVec.ofNat 16 k)
    if s.isDevice a then ⟨.fetch, a, b⟩ :: s.fetchAnswers rest (k + 1) else s.fetchAnswers rest (k + 1)

/-- A list of bytes written at offset `PC + k` of the program bank and on. -/
def State.placeBytes : List Byte → Nat → State → State
  | [], _, s => s
  | b :: rest, k, s => State.placeBytes rest (k + 1) (s.writeByte (bankAddr s.pbr (s.pc + BitVec.ofNat 16 k)) b)

end Sys2Proof.Machine
end

