-- ==== Sys2Proof/Machine/Step.lean ====
section
/-! DEFINITION. The step (R349): the boundary, then the instruction that the fetched bytes decode to. -/

namespace Sys2Proof.Machine

/-- The instruction at `PBR:PC` fetched, decoded under the flags m and x of this moment (R94, R95), and executed. -/
def fetchAndExecute (s : State) : Host.Outcome State Fault Refusal :=
  match decode (s.flag .m) (s.flag .x) s.fetchBytes with
  | .ok (i, _) => exec i s
  | .error _ => .refused .undecodable

/-- `Step` (R349): serves at most one event or executes exactly one instruction. -/
def step (s : State) : Host.Outcome State Fault Refusal :=
  match s.boundary with
  | .done t => .next t
  | .execute t => fetchAndExecute t

/-- The state with an instruction, numbered as the opcode table numbers it, in the four bytes from `PBR:PC` on, and
with nothing that would keep the next step from executing it: not stopped, not waiting, no NMI pending, no input
asserted at the next step, and the platform answering fetches of device addresses with these bytes (log entry 14). -/
def State.withFetchWord (s : State) (nbits w : Nat) : State :=
  let answers := s.fetchAnswers (tableBytes nbits w) 0
  State.placeBytes (tableBytes nbits w) 0
    { s with
      stopped := false
      waiting := false
      nmiPending := false
      inputs :=
        if s.inputs.isEmpty && answers.isEmpty then [] else { HostInput.idle with io := answers } :: s.inputs.tail }

end Sys2Proof.Machine
end

