-- ==== Sys2Proof/Safety.lean ====
section
/-! DEFINITION. The terms the claims use: the invariants every step keeps, the operand an instruction's row of the
opcode table names, what each instruction may write (flags, registers, bytes of memory), and the arithmetic the rules
describe, written over numbers. Nothing here is used by the machine. -/

namespace Sys2Proof.Machine

/-! ## Invariants -/

/-- The mode invariants (R42): `E = 1` implies m = x = 1 and `SH = 0x01`; x = 1 implies `XH = YH = 0`. -/
abbrev State.modeOk (s : State) : Prop :=
  (s.e = true → s.flag .m = true ∧ s.flag .x = true ∧ hiByte s.s = 0x01) ∧
    (s.flag .x = true → hiByte s.x = 0 ∧ hiByte s.y = 0)

/-- The mode invariants, and the canonical form of memory. -/
abbrev State.Inv (s : State) : Prop := s.modeOk ∧ s.mem.wf = true

/-- Nothing at this boundary keeps the instruction at `PBR:PC` from being executed (R349): no reset, not stopped, not
waiting, no NMI, and no IRQ unless masked. -/
abbrev State.undisturbed (s : State) : Prop :=
  s.input.reset = false ∧ s.stopped = false ∧ s.waiting = false ∧ s.nmiPending = false ∧ s.input.nmi = false ∧
    (s.input.irq = true → s.flag .i = true)

/-! ## Operands -/

/-- An immediate, or a location in memory. -/
inductive Operand
  | imm (v : Imm)
  | mem (f : MemForm)
deriving DecidableEq, Repr

/-- `Operand(w)` (R121). -/
def Operand.value (s : State) (w : Width) : Operand → Word
  | .imm v => immValue w v
  | .mem f => s.operand f w

/-- The operations that read one operand and write no memory. -/
inductive ReadOp
  | ora
  | and
  | eor
  | adc
  | lda
  | cmp
  | sbc
  | bit
  | cpx
  | cpy
  | ldx
  | ldy
deriving DecidableEq, Repr

/-- The width an operation reads its operand at (R43). -/
def ReadOp.width (s : State) : ReadOp → Width
  | .cpx | .cpy | .ldx | .ldy => s.wX
  | .ora | .and | .eor | .adc | .lda | .cmp | .sbc | .bit => s.wA

/-- The operation and the operand of a row that reads one operand (R92 and the *Source rows* of R163 to R166, R173,
R181, R183, R184, R186, R270 to R272). -/
def readRow : Instr → Option (ReadOp × Operand)
  | .oraDpXInd dp => some (.ora, .mem (.dpXInd dp))
  | .oraSr ofs => some (.ora, .mem (.sr ofs))
  | .oraDp dp => some (.ora, .mem (.dp dp))
  | .oraDpIndL dp => some (.ora, .mem (.dpIndL dp))
  | .oraImm imm => some (.ora, .imm imm)
  | .oraAbs abs => some (.ora, .mem (.abs abs))
  | .oraLong long => some (.ora, .mem (.long long))
  | .oraDpIndY dp => some (.ora, .mem (.dpIndY dp))
  | .oraDpInd dp => some (.ora, .mem (.dpInd dp))
  | .oraSrIndY ofs => some (.ora, .mem (.srIndY ofs))
  | .oraDpX dp => some (.ora, .mem (.dpX dp))
  | .oraDpIndLY dp => some (.ora, .mem (.dpIndLY dp))
  | .oraAbsY abs => some (.ora, .mem (.absY abs))
  | .oraAbsX abs => some (.ora, .mem (.absX abs))
  | .oraLongX long => some (.ora, .mem (.longX long))
  | .andDpXInd dp => some (.and, .mem (.dpXInd dp))
  | .andSr ofs => some (.and, .mem (.sr ofs))
  | .andDp dp => some (.and, .mem (.dp dp))
  | .andDpIndL dp => some (.and, .mem (.dpIndL dp))
  | .andImm imm => some (.and, .imm imm)
  | .andAbs abs => some (.and, .mem (.abs abs))
  | .andLong long => some (.and, .mem (.long long))
  | .andDpIndY dp => some (.and, .mem (.dpIndY dp))
  | .andDpInd dp => some (.and, .mem (.dpInd dp))
  | .andSrIndY ofs => some (.and, .mem (.srIndY ofs))
  | .andDpX dp => some (.and, .mem (.dpX dp))
  | .andDpIndLY dp => some (.and, .mem (.dpIndLY dp))
  | .andAbsY abs => some (.and, .mem (.absY abs))
  | .andAbsX abs => some (.and, .mem (.absX abs))
  | .andLongX long => some (.and, .mem (.longX long))
  | .eorDpXInd dp => some (.eor, .mem (.dpXInd dp))
  | .eorSr ofs => some (.eor, .mem (.sr ofs))
  | .eorDp dp => some (.eor, .mem (.dp dp))
  | .eorDpIndL dp => some (.eor, .mem (.dpIndL dp))
  | .eorImm imm => some (.eor, .imm imm)
  | .eorAbs abs => some (.eor, .mem (.abs abs))
  | .eorLong long => some (.eor, .mem (.long long))
  | .eorDpIndY dp => some (.eor, .mem (.dpIndY dp))
  | .eorDpInd dp => some (.eor, .mem (.dpInd dp))
  | .eorSrIndY ofs => some (.eor, .mem (.srIndY ofs))
  | .eorDpX dp => some (.eor, .mem (.dpX dp))
  | .eorDpIndLY dp => some (.eor, .mem (.dpIndLY dp))
  | .eorAbsY abs => some (.eor, .mem (.absY abs))
  | .eorAbsX abs => some (.eor, .mem (.absX abs))
  | .eorLongX long => some (.eor, .mem (.longX long))
  | .adcDpXInd dp => some (.adc, .mem (.dpXInd dp))
  | .adcSr ofs => some (.adc, .mem (.sr ofs))
  | .adcDp dp => some (.adc, .mem (.dp dp))
  | .adcDpIndL dp => some (.adc, .mem (.dpIndL dp))
  | .adcImm imm => some (.adc, .imm imm)
  | .adcAbs abs => some (.adc, .mem (.abs abs))
  | .adcLong long => some (.adc, .mem (.long long))
  | .adcDpIndY dp => some (.adc, .mem (.dpIndY dp))
  | .adcDpInd dp => some (.adc, .mem (.dpInd dp))
  | .adcSrIndY ofs => some (.adc, .mem (.srIndY ofs))
  | .adcDpX dp => some (.adc, .mem (.dpX dp))
  | .adcDpIndLY dp => some (.adc, .mem (.dpIndLY dp))
  | .adcAbsY abs => some (.adc, .mem (.absY abs))
  | .adcAbsX abs => some (.adc, .mem (.absX abs))
  | .adcLongX long => some (.adc, .mem (.longX long))
  | .ldaDpXInd dp => some (.lda, .mem (.dpXInd dp))
  | .ldaSr ofs => some (.lda, .mem (.sr ofs))
  | .ldaDp dp => some (.lda, .mem (.dp dp))
  | .ldaDpIndL dp => some (.lda, .mem (.dpIndL dp))
  | .ldaImm imm => some (.lda, .imm imm)
  | .ldaAbs abs => some (.lda, .mem (.abs abs))
  | .ldaLong long => some (.lda, .mem (.long long))
  | .ldaDpIndY dp => some (.lda, .mem (.dpIndY dp))
  | .ldaDpInd dp => some (.lda, .mem (.dpInd dp))
  | .ldaSrIndY ofs => some (.lda, .mem (.srIndY ofs))
  | .ldaDpX dp => some (.lda, .mem (.dpX dp))
  | .ldaDpIndLY dp => some (.lda, .mem (.dpIndLY dp))
  | .ldaAbsY abs => some (.lda, .mem (.absY abs))
  | .ldaAbsX abs => some (.lda, .mem (.absX abs))
  | .ldaLongX long => some (.lda, .mem (.longX long))
  | .cmpDpXInd dp => some (.cmp, .mem (.dpXInd dp))
  | .cmpSr ofs => some (.cmp, .mem (.sr ofs))
  | .cmpDp dp => some (.cmp, .mem (.dp dp))
  | .cmpDpIndL dp => some (.cmp, .mem (.dpIndL dp))
  | .cmpImm imm => some (.cmp, .imm imm)
  | .cmpAbs abs => some (.cmp, .mem (.abs abs))
  | .cmpLong long => some (.cmp, .mem (.long long))
  | .cmpDpIndY dp => some (.cmp, .mem (.dpIndY dp))
  | .cmpDpInd dp => some (.cmp, .mem (.dpInd dp))
  | .cmpSrIndY ofs => some (.cmp, .mem (.srIndY ofs))
  | .cmpDpX dp => some (.cmp, .mem (.dpX dp))
  | .cmpDpIndLY dp => some (.cmp, .mem (.dpIndLY dp))
  | .cmpAbsY abs => some (.cmp, .mem (.absY abs))
  | .cmpAbsX abs => some (.cmp, .mem (.absX abs))
  | .cmpLongX long => some (.cmp, .mem (.longX long))
  | .sbcDpXInd dp => some (.sbc, .mem (.dpXInd dp))
  | .sbcSr ofs => some (.sbc, .mem (.sr ofs))
  | .sbcDp dp => some (.sbc, .mem (.dp dp))
  | .sbcDpIndL dp => some (.sbc, .mem (.dpIndL dp))
  | .sbcImm imm => some (.sbc, .imm imm)
  | .sbcAbs abs => some (.sbc, .mem (.abs abs))
  | .sbcLong long => some (.sbc, .mem (.long long))
  | .sbcDpIndY dp => some (.sbc, .mem (.dpIndY dp))
  | .sbcDpInd dp => some (.sbc, .mem (.dpInd dp))
  | .sbcSrIndY ofs => some (.sbc, .mem (.srIndY ofs))
  | .sbcDpX dp => some (.sbc, .mem (.dpX dp))
  | .sbcDpIndLY dp => some (.sbc, .mem (.dpIndLY dp))
  | .sbcAbsY abs => some (.sbc, .mem (.absY abs))
  | .sbcAbsX abs => some (.sbc, .mem (.absX abs))
  | .sbcLongX long => some (.sbc, .mem (.longX long))
  | .bitDp dp => some (.bit, .mem (.dp dp))
  | .bitAbs abs => some (.bit, .mem (.abs abs))
  | .bitDpX dp => some (.bit, .mem (.dpX dp))
  | .bitAbsX abs => some (.bit, .mem (.absX abs))
  | .bitImm imm => some (.bit, .imm imm)
  | .cpxImm imm => some (.cpx, .imm imm)
  | .cpxDp dp => some (.cpx, .mem (.dp dp))
  | .cpxAbs abs => some (.cpx, .mem (.abs abs))
  | .cpyImm imm => some (.cpy, .imm imm)
  | .cpyDp dp => some (.cpy, .mem (.dp dp))
  | .cpyAbs abs => some (.cpy, .mem (.abs abs))
  | .ldxImm imm => some (.ldx, .imm imm)
  | .ldxDp dp => some (.ldx, .mem (.dp dp))
  | .ldxAbs abs => some (.ldx, .mem (.abs abs))
  | .ldxDpY dp => some (.ldx, .mem (.dpY dp))
  | .ldxAbsY abs => some (.ldx, .mem (.absY abs))
  | .ldyImm imm => some (.ldy, .imm imm)
  | .ldyDp dp => some (.ldy, .mem (.dp dp))
  | .ldyAbs abs => some (.ldy, .mem (.abs abs))
  | .ldyDpX dp => some (.ldy, .mem (.dpX dp))
  | .ldyAbsX abs => some (.ldy, .mem (.absX abs))
  | _ => none

/-- The operations that store a register or zero. -/
inductive StoreOp
  | sta
  | stx
  | sty
  | stz
deriving DecidableEq, Repr

/-- The width of a store (R273 to R276). -/
def StoreOp.width (s : State) : StoreOp → Width
  | .sta | .stz => s.wA
  | .stx | .sty => s.wX

/-- What a store writes, as 16 bits (R273 to R276). -/
def StoreOp.value (s : State) : StoreOp → Word
  | .sta => s.c
  | .stx => s.x
  | .sty => s.y
  | .stz => 0

/-- The operation and the form of a storing row (*Source rows* of R273 to R276). -/
def storeRow : Instr → Option (StoreOp × MemForm)
  | .staDpXInd dp => some (.sta, .dpXInd dp)
  | .staSr ofs => some (.sta, .sr ofs)
  | .staDp dp => some (.sta, .dp dp)
  | .staDpIndL dp => some (.sta, .dpIndL dp)
  | .staAbs abs => some (.sta, .abs abs)
  | .staLong long => some (.sta, .long long)
  | .staDpIndY dp => some (.sta, .dpIndY dp)
  | .staDpInd dp => some (.sta, .dpInd dp)
  | .staSrIndY ofs => some (.sta, .srIndY ofs)
  | .staDpX dp => some (.sta, .dpX dp)
  | .staDpIndLY dp => some (.sta, .dpIndLY dp)
  | .staAbsY abs => some (.sta, .absY abs)
  | .staAbsX abs => some (.sta, .absX abs)
  | .staLongX long => some (.sta, .longX long)
  | .stxDp dp => some (.stx, .dp dp)
  | .stxAbs abs => some (.stx, .abs abs)
  | .stxDpY dp => some (.stx, .dpY dp)
  | .styDp dp => some (.sty, .dp dp)
  | .styAbs abs => some (.sty, .abs abs)
  | .styDpX dp => some (.sty, .dpX dp)
  | .stzDp dp => some (.stz, .dp dp)
  | .stzDpX dp => some (.stz, .dpX dp)
  | .stzAbs abs => some (.stz, .abs abs)
  | .stzAbsX abs => some (.stz, .absX abs)
  | _ => none

/-- The operations that modify the accumulator or memory. -/
inductive ModifyOp
  | asl
  | lsr
  | rol
  | ror
  | inc
  | dec
deriving DecidableEq, Repr

/-- The operation of a modifying row, and its form, `none` for the accumulator (*Source rows* of R167, R170, R182,
R185, R187, R189). -/
def modifyRow : Instr → Option (ModifyOp × Option MemForm)
  | .aslDp dp => some (.asl, some (.dp dp))
  | .aslAcc => some (.asl, none)
  | .aslAbs abs => some (.asl, some (.abs abs))
  | .aslDpX dp => some (.asl, some (.dpX dp))
  | .aslAbsX abs => some (.asl, some (.absX abs))
  | .lsrDp dp => some (.lsr, some (.dp dp))
  | .lsrAcc => some (.lsr, none)
  | .lsrAbs abs => some (.lsr, some (.abs abs))
  | .lsrDpX dp => some (.lsr, some (.dpX dp))
  | .lsrAbsX abs => some (.lsr, some (.absX abs))
  | .rolDp dp => some (.rol, some (.dp dp))
  | .rolAcc => some (.rol, none)
  | .rolAbs abs => some (.rol, some (.abs abs))
  | .rolDpX dp => some (.rol, some (.dpX dp))
  | .rolAbsX abs => some (.rol, some (.absX abs))
  | .rorDp dp => some (.ror, some (.dp dp))
  | .rorAcc => some (.ror, none)
  | .rorAbs abs => some (.ror, some (.abs abs))
  | .rorDpX dp => some (.ror, some (.dpX dp))
  | .rorAbsX abs => some (.ror, some (.absX abs))
  | .incAcc => some (.inc, none)
  | .incDp dp => some (.inc, some (.dp dp))
  | .incAbs abs => some (.inc, some (.abs abs))
  | .incDpX dp => some (.inc, some (.dpX dp))
  | .incAbsX abs => some (.inc, some (.absX abs))
  | .decAcc => some (.dec, none)
  | .decDp dp => some (.dec, some (.dp dp))
  | .decAbs abs => some (.dec, some (.abs abs))
  | .decDpX dp => some (.dec, some (.dpX dp))
  | .decAbsX abs => some (.dec, some (.absX abs))
  | _ => none

/-- The form of a TRB or TSB row, and whether it sets bits (R190, R191). -/
def testRow : Instr → Option (Bool × MemForm)
  | .trbDp dp => some (false, .dp dp)
  | .trbAbs abs => some (false, .abs abs)
  | .tsbDp dp => some (true, .dp dp)
  | .tsbAbs abs => some (true, .abs abs)
  | _ => none

/-- The flag a conditional branch tests, the value it must have, and the displacement (R201 to R206, R209, R210). -/
def branchRow : Instr → Option (Flag × Bool × Byte)
  | .bcc rel => some (.c, false, rel)
  | .bcs rel => some (.c, true, rel)
  | .beq rel => some (.z, true, rel)
  | .bmi rel => some (.n, true, rel)
  | .bne rel => some (.z, false, rel)
  | .bpl rel => some (.n, false, rel)
  | .bvc rel => some (.v, false, rel)
  | .bvs rel => some (.v, true, rel)
  | _ => none

/-! ## What an instruction may write -/

/-- The flags an instruction writes: the letters, digits and question marks of the `flags` string of its row in the
opcode table (R7, R102). -/
def flagsWritten : Instr → List Flag
  | .brk _ | .cop _ => [.d, .i]
  | .oraDpXInd _ | .oraSr _ | .oraDp _ | .oraDpIndL _ | .oraImm _ | .oraAbs _ | .oraLong _ | .oraDpIndY _
  | .oraDpInd _ | .oraSrIndY _ | .oraDpX _ | .oraDpIndLY _ | .oraAbsY _ | .oraAbsX _ | .oraLongX _ | .andDpXInd _
  | .andSr _ | .andDp _ | .andDpIndL _ | .andImm _ | .andAbs _ | .andLong _ | .andDpIndY _ | .andDpInd _
  | .andSrIndY _ | .andDpX _ | .andDpIndLY _ | .andAbsY _ | .andAbsX _ | .andLongX _ | .eorDpXInd _ | .eorSr _
  | .eorDp _ | .eorDpIndL _ | .eorImm _ | .eorAbs _ | .eorLong _ | .eorDpIndY _ | .eorDpInd _ | .eorSrIndY _
  | .eorDpX _ | .eorDpIndLY _ | .eorAbsY _ | .eorAbsX _ | .eorLongX _ | .ldyImm _ | .ldaDpXInd _ | .ldxImm _
  | .ldaSr _ | .ldyDp _ | .ldaDp _ | .ldxDp _ | .ldaDpIndL _ | .ldaImm _ | .ldyAbs _ | .ldaAbs _ | .ldxAbs _
  | .ldaLong _ | .ldaDpIndY _ | .ldaDpInd _ | .ldaSrIndY _ | .ldyDpX _ | .ldaDpX _ | .ldxDpY _ | .ldaDpIndLY _
  | .ldaAbsY _ | .ldyAbsX _ | .ldaAbsX _ | .ldxAbsY _ | .ldaLongX _ | .decDp _ | .decAbs _ | .decDpX _ | .decAbsX _
  | .incDp _ | .incAbs _ | .incDpX _ | .incAbsX _ | .incAcc | .pld | .decAcc | .tsc | .tcd | .pla | .ply | .tdc
  | .dey | .txa | .tya | .txy | .tay | .tax | .plb | .tsx | .tyx | .iny | .dex | .inx | .xba | .plx => [.n, .z]
  | .tsbDp _ | .tsbAbs _ | .trbDp _ | .trbAbs _ | .bitImm _ => [.z]
  | .aslDp _ | .aslAbs _ | .aslDpX _ | .aslAbsX _ | .rolDp _ | .rolAbs _ | .rolDpX _ | .rolAbsX _ | .lsrDp _
  | .lsrAbs _ | .lsrDpX _ | .lsrAbsX _ | .rorDp _ | .rorAbs _ | .rorDpX _ | .rorAbsX _ | .cpyImm _ | .cmpDpXInd _
  | .cmpSr _ | .cpyDp _ | .cmpDp _ | .cmpDpIndL _ | .cmpImm _ | .cpyAbs _ | .cmpAbs _ | .cmpLong _ | .cmpDpIndY _
  | .cmpDpInd _ | .cmpSrIndY _ | .cmpDpX _ | .cmpDpIndLY _ | .cmpAbsY _ | .cmpAbsX _ | .cmpLongX _ | .cpxImm _
  | .cpxDp _ | .cpxAbs _ | .aslAcc | .rolAcc | .lsrAcc | .rorAcc => [.n, .z, .c]
  | .bpl _ | .jsrAbs _ | .jsl _ | .bmi _ | .wdm _ | .mvp _ _ | .jmpAbs _ | .bvc _ | .mvn _ _ | .jmlLong _ | .per _
  | .stzDp _ | .jmpAbsInd _ | .bvs _ | .stzDpX _ | .jmpAbsXInd _ | .bra _ | .staDpXInd _ | .brl _ | .staSr _
  | .styDp _ | .staDp _ | .stxDp _ | .staDpIndL _ | .styAbs _ | .staAbs _ | .stxAbs _ | .staLong _ | .bcc _
  | .staDpIndY _ | .staDpInd _ | .staSrIndY _ | .styDpX _ | .staDpX _ | .stxDpY _ | .staDpIndLY _ | .staAbsY _
  | .stzAbs _ | .staAbsX _ | .stzAbsX _ | .staLongX _ | .bcs _ | .bne _ | .pei _ | .jmlAbsIndL _ | .beq _ | .pea _
  | .jsrAbsXInd _ | .php | .phd | .tcs | .pha | .phk | .phy | .rts | .rtl | .phb | .txs | .wai | .phx | .stp | .nop => []
  | .bitDp _ | .bitAbs _ | .bitDpX _ | .bitAbsX _ => [.n, .v, .z]
  | .adcDpXInd _ | .adcSr _ | .adcDp _ | .adcDpIndL _ | .adcImm _ | .adcAbs _ | .adcLong _ | .adcDpIndY _
  | .adcDpInd _ | .adcSrIndY _ | .adcDpX _ | .adcDpIndLY _ | .adcAbsY _ | .adcAbsX _ | .adcLongX _ | .sbcDpXInd _
  | .sbcSr _ | .sbcDp _ | .sbcDpIndL _ | .sbcImm _ | .sbcAbs _ | .sbcLong _ | .sbcDpIndY _ | .sbcDpInd _
  | .sbcSrIndY _ | .sbcDpX _ | .sbcDpIndLY _ | .sbcAbsY _ | .sbcAbsX _ | .sbcLongX _ => [.n, .v, .z, .c]
  | .rep _ | .sep _ | .plp | .rti => [.n, .v, .m, .x, .d, .i, .z, .c]
  | .clc | .sec => [.c]
  | .cli | .sei => [.i]
  | .clv => [.v]
  | .cld | .sed => [.d]
  | .xce => [.m, .x, .c]

/-- The registers and hidden state apart from `P`, `PC` and memory (R20), and the draw counter. -/
inductive Reg
  | c
  | x
  | y
  | s
  | d
  | dbr
  | pbr
  | e
  | stopped
  | waiting
  | nmiPending
  | draws
deriving DecidableEq, Repr

/-- A register's contents as a number. -/
def State.reg (s : State) : Reg → Nat
  | .c => s.c.toNat
  | .x => s.x.toNat
  | .y => s.y.toNat
  | .s => s.s.toNat
  | .d => s.d.toNat
  | .dbr => s.dbr.toNat
  | .pbr => s.pbr.toNat
  | .e => s.e.toNat
  | .stopped => s.stopped.toNat
  | .waiting => s.waiting.toNat
  | .nmiPending => s.nmiPending.toNat
  | .draws => s.draws

/-- The registers an instruction may write (the "written by" of R20 to R26, R40 and R45, and the instruction's own
rule). PLP, RTI, SEP and XCE may clear `XH` and `YH`, and XCE may force `SH` (R42). -/
def regsWritten : Instr → List Reg
  | .brk _ | .cop _ | .jsl _ | .rtl => [.s, .pbr]
  | .oraDpXInd _ | .oraSr _ | .oraDp _ | .oraDpIndL _ | .oraImm _ | .oraAbs _ | .oraLong _ | .oraDpIndY _
  | .oraDpInd _ | .oraSrIndY _ | .oraDpX _ | .oraDpIndLY _ | .oraAbsY _ | .oraAbsX _ | .oraLongX _ | .andDpXInd _
  | .andSr _ | .andDp _ | .andDpIndL _ | .andImm _ | .andAbs _ | .andLong _ | .andDpIndY _ | .andDpInd _
  | .andSrIndY _ | .andDpX _ | .andDpIndLY _ | .andAbsY _ | .andAbsX _ | .andLongX _ | .eorDpXInd _ | .eorSr _
  | .eorDp _ | .eorDpIndL _ | .eorImm _ | .eorAbs _ | .eorLong _ | .eorDpIndY _ | .eorDpInd _ | .eorSrIndY _
  | .eorDpX _ | .eorDpIndLY _ | .eorAbsY _ | .eorAbsX _ | .eorLongX _ | .ldaDpXInd _ | .ldaSr _ | .ldaDp _
  | .ldaDpIndL _ | .ldaImm _ | .ldaAbs _ | .ldaLong _ | .ldaDpIndY _ | .ldaDpInd _ | .ldaSrIndY _ | .ldaDpX _
  | .ldaDpIndLY _ | .ldaAbsY _ | .ldaAbsX _ | .ldaLongX _ | .aslAcc | .incAcc | .rolAcc | .decAcc | .tsc | .lsrAcc
  | .rorAcc | .tdc | .txa | .tya | .xba => [.c]
  | .tsbDp _ | .aslDp _ | .tsbAbs _ | .aslAbs _ | .bpl _ | .trbDp _ | .aslDpX _ | .trbAbs _ | .aslAbsX _ | .bitDp _
  | .rolDp _ | .bitAbs _ | .rolAbs _ | .bmi _ | .bitDpX _ | .rolDpX _ | .bitAbsX _ | .rolAbsX _ | .wdm _ | .lsrDp _
  | .jmpAbs _ | .lsrAbs _ | .bvc _ | .lsrDpX _ | .lsrAbsX _ | .stzDp _ | .rorDp _ | .jmpAbsInd _ | .rorAbs _
  | .bvs _ | .stzDpX _ | .rorDpX _ | .jmpAbsXInd _ | .rorAbsX _ | .bra _ | .staDpXInd _ | .brl _ | .staSr _
  | .styDp _ | .staDp _ | .stxDp _ | .staDpIndL _ | .bitImm _ | .styAbs _ | .staAbs _ | .stxAbs _ | .staLong _
  | .bcc _ | .staDpIndY _ | .staDpInd _ | .staSrIndY _ | .styDpX _ | .staDpX _ | .stxDpY _ | .staDpIndLY _
  | .staAbsY _ | .stzAbs _ | .staAbsX _ | .stzAbsX _ | .staLongX _ | .bcs _ | .cpyImm _ | .cmpDpXInd _ | .rep _
  | .cmpSr _ | .cpyDp _ | .cmpDp _ | .decDp _ | .cmpDpIndL _ | .cmpImm _ | .cpyAbs _ | .cmpAbs _ | .decAbs _
  | .cmpLong _ | .bne _ | .cmpDpIndY _ | .cmpDpInd _ | .cmpSrIndY _ | .cmpDpX _ | .decDpX _ | .cmpDpIndLY _
  | .cmpAbsY _ | .cmpAbsX _ | .decAbsX _ | .cmpLongX _ | .cpxImm _ | .cpxDp _ | .incDp _ | .cpxAbs _ | .incAbs _
  | .beq _ | .incDpX _ | .incAbsX _ | .clc | .sec | .cli | .sei | .clv | .cld | .nop | .sed => []
  | .jsrAbs _ | .per _ | .pei _ | .pea _ | .jsrAbsXInd _ | .php | .phd | .tcs | .pha | .phk | .phy | .rts | .phb
  | .txs | .phx => [.s]
  | .mvp _ _ | .mvn _ _ => [.c, .x, .y, .dbr]
  | .jmlLong _ | .jmlAbsIndL _ => [.pbr]
  | .adcDpXInd _ | .adcSr _ | .adcDp _ | .adcDpIndL _ | .adcImm _ | .adcAbs _ | .adcLong _ | .adcDpIndY _
  | .adcDpInd _ | .adcSrIndY _ | .adcDpX _ | .adcDpIndLY _ | .adcAbsY _ | .adcAbsX _ | .adcLongX _ | .sbcDpXInd _
  | .sbcSr _ | .sbcDp _ | .sbcDpIndL _ | .sbcImm _ | .sbcAbs _ | .sbcLong _ | .sbcDpIndY _ | .sbcDpInd _
  | .sbcSrIndY _ | .sbcDpX _ | .sbcDpIndLY _ | .sbcAbsY _ | .sbcAbsX _ | .sbcLongX _ => [.c, .draws]
  | .ldyImm _ | .ldyDp _ | .ldyAbs _ | .ldyDpX _ | .ldyAbsX _ | .dey | .txy | .tay | .iny => [.y]
  | .ldxImm _ | .ldxDp _ | .ldxAbs _ | .ldxDpY _ | .ldxAbsY _ | .tax | .tsx | .tyx | .dex | .inx => [.x]
  | .sep _ => [.x, .y]
  | .plp => [.x, .y, .s]
  | .pld => [.s, .d]
  | .rti => [.x, .y, .s, .pbr]
  | .tcd => [.d]
  | .pla => [.c, .s]
  | .ply => [.y, .s]
  | .plb => [.s, .dbr]
  | .wai => [.waiting]
  | .stp => [.stopped]
  | .plx => [.x, .s]
  | .xce => [.x, .y, .s, .e]

/-- The addresses of an operand's bytes. -/
def locBytes (l : Loc) : Width → List Addr
  | .w8 => [l.addr]
  | .w16 => [l.addr, l.next]

/-- The number of bytes of a width. -/
def widthBytes : Width → Nat
  | .w8 => 1
  | .w16 => 2

/-- `S` after `k` old-style pushes (R68). -/
def stackBelow (e : Bool) (sp : Word) : Nat → Word
  | 0 => sp
  | k + 1 => stackDown e (stackBelow e sp k)

/-- `S` after `k` old-style pulls (R69). -/
def stackAbove (e : Bool) (sp : Word) : Nat → Word
  | 0 => sp
  | k + 1 => stackUp e (stackAbove e sp k)

/-- The address the push number `k` writes, counted from 0 (R68). -/
def State.pushAddr (s : State) (k : Nat) : Addr := bankAddr 0 (stackBelow s.e s.s k)

/-- The address the pull number `k` reads, counted from 1 (R69). -/
def State.pullAddr (s : State) (k : Nat) : Addr := bankAddr 0 (stackAbove s.e s.s k)

/-- The addresses of `n` old-style pushes. -/
def State.pushAddrs (s : State) (n : Nat) : List Addr := (List.range n).map s.pushAddr

/-- The addresses of `n` pushes that count `S` as 16 bits in both modes (R70). -/
def State.pushNAddrs (s : State) (n : Nat) : List Addr :=
  (List.range n).map fun k => bankAddr 0 (s.s - BitVec.ofNat 16 k)

/-- The bytes of a frame (R348): four in native mode, three in emulation mode. -/
def frameBytes (e : Bool) : Nat := if e then 3 else 4

/-- The addresses an instruction stores to that is no store, modify or test row: pushes, calls, software interrupts,
block moves. -/
def otherStores (s : State) : Instr → List Addr
  | .pha => s.pushAddrs (widthBytes s.wA)
  | .phx | .phy => s.pushAddrs (widthBytes s.wX)
  | .phb | .phk | .php => s.pushAddrs 1
  | .jsrAbs _ => s.pushAddrs 2
  | .phd | .pea _ | .pei _ | .per _ | .jsrAbsXInd _ => s.pushNAddrs 2
  | .jsl _ => s.pushNAddrs 3
  | .brk _ | .cop _ => s.pushAddrs (frameBytes s.e)
  | .mvn dstbank _ | .mvp dstbank _ => [bankAddr dstbank s.y]
  | _ => []

/-- Every address an instruction stores to. -/
def stores (s : State) (i : Instr) : List Addr :=
  match storeRow i, modifyRow i, testRow i with
  | some (op, f), _, _ => locBytes (s.loc f) (op.width s)
  | _, some (_, some f), _ => locBytes (s.loc f) s.wA
  | _, _, some (_, f) => locBytes (s.loc f) s.wA
  | _, _, _ => otherStores s i

/-- The instructions that do not simply go on to the next one: branches, jumps, calls, returns, software interrupts and
block moves. -/
def redirects : Instr → Bool
  | .bcc _ | .bcs _ | .beq _ | .bmi _ | .bne _ | .bpl _ | .bra _ | .brl _ | .bvc _ | .bvs _ => true
  | .jmpAbs _ | .jmpAbsInd _ | .jmpAbsXInd _ | .jmlLong _ | .jmlAbsIndL _ => true
  | .jsl _ | .jsrAbs _ | .jsrAbsXInd _ | .rtl | .rts | .rti | .brk _ | .cop _ | .mvn _ _ | .mvp _ _ => true
  | _ => false

/-! ## Frames and stack contents -/

/-- Every flag outside a list is kept. -/
abbrev keepsFlags (s t : State) (written : List Flag) : Prop := ∀ f, f ∉ written → t.flag f = s.flag f

/-- Every byte of memory outside a list of addresses is kept. -/
abbrev keepsBytes (s t : State) (written : List Addr) : Prop := ∀ a, a ∉ written → t.byteAt a = s.byteAt a

/-- `PC` is past the instruction, inside its bank (R28, R66). -/
abbrev goesOn (i : Instr) (s t : State) : Prop := t.pc = s.pc + BitVec.ofNat 16 (encode i).length

/-- The value of a width that memory holds at a location (R148). -/
def State.contents (s : State) (l : Loc) : Width → Word
  | .w8 => (s.byteAt l.addr).setWidth 16
  | .w16 => word16 (s.byteAt l.addr) (s.byteAt l.next)

/-- A list of bytes lies on the stack, in push order, from `S` down (R68). -/
abbrev pushed (s t : State) (bytes : List Byte) : Prop :=
  ∀ (k : Nat) (h : k < bytes.length), t.byteAt (s.pushAddr k) = bytes[k]

/-- A list of bytes lies on the stack, in push order, from `S` down, with `S` counted as 16 bits in both modes
(R70). -/
abbrev pushedN (s t : State) (bytes : List Byte) : Prop :=
  ∀ (k : Nat) (h : k < bytes.length), t.byteAt (bankAddr 0 (s.s - BitVec.ofNat 16 k)) = bytes[k]

/-- `S` after an instruction that counted it to `sp` as 16 bits (R42, R70): in emulation mode `SH` is 0x01 again. -/
def normalS (e : Bool) (sp : Word) : Word := if e then word16 (loByte sp) 0x01 else sp

/-- The value of a width that a pull yields (R69, R71). -/
def State.pulled (s : State) : Width → Word
  | .w8 => (s.readByte .pull (s.pullAddr 1)).setWidth 16
  | .w16 => s.read16 .pull (s.pullAddr 1) (s.pullAddr 2)

/-- The bytes a register push pushes, in push order (R303, R304, R306 to R309). -/
def pushRow (s : State) : Instr → Option (List Byte)
  | .pha => some (if s.flag .m then [loByte s.c] else [hiByte s.c, loByte s.c])
  | .phx => some (if s.flag .x then [loByte s.x] else [hiByte s.x, loByte s.x])
  | .phy => some (if s.flag .x then [loByte s.y] else [hiByte s.y, loByte s.y])
  | .phb => some [s.dbr]
  | .phk => some [s.pbr]
  | .php => some [s.p]
  | _ => none

/-- The word that PEA, PEI, PER and PHD push (R300 to R302, R305). -/
def pushNRow (s : State) : Instr → Option Word
  | .pea v => some v
  | .pei dp => some (s.read16 .pointer (bankAddr 0 (s.d + dp.setWidth 16)) (bankAddr 0 (s.d + dp.setWidth 16 + 1)))
  | .per rel => some (s.pc + 3 + rel)
  | .phd => some s.d
  | _ => none

/-- The flag a one-flag instruction writes, and its value (R250 to R253, R255 to R257). -/
def flagRow : Instr → Option (Flag × Bool)
  | .clc => some (.c, false)
  | .cld => some (.d, false)
  | .cli => some (.i, false)
  | .clv => some (.v, false)
  | .sec => some (.c, true)
  | .sed => some (.d, true)
  | .sei => some (.i, true)
  | _ => none

/-- The bytes of an event's frame, in push order (R348). -/
def frame (s : State) (returnTo : Word) (status : Byte) : List Byte :=
  if s.e then [hiByte returnTo, loByte returnTo, status] else [s.pbr, hiByte returnTo, loByte returnTo, status]

/-- An event is entered from `s` into `t` (R348): the frame pushed, i set, d cleared, `PBR` zero, `PC` from the vector,
and nothing else changed. -/
abbrev entered (s t : State) (returnTo : Word) (status : Byte) (vec : Word) : Prop :=
  pushed s t (frame s returnTo status) ∧ keepsBytes s t (s.pushAddrs (frameBytes s.e)) ∧
    t.s = stackBelow s.e s.s (frameBytes s.e) ∧ t.flag .i = true ∧ t.flag .d = false ∧ keepsFlags s t [.i, .d] ∧
    t.pbr = 0 ∧ t.pc = t.read16 .vector (bankAddr 0 vec) (bankAddr 0 (vec + 1)) ∧
    t = { s with mem := t.mem, s := t.s, p := t.p, pbr := t.pbr, pc := t.pc }

/-- An instruction executed a number of times in a row, as a block move is (R290). -/
def execTimes (i : Instr) : Nat → State → Result
  | 0, s => .next s
  | n + 1, s =>
    match exec i s with
    | .next t => execTimes i n t
    | .fault r => .fault r
    | .refused r => .refused r

/-! ## The rules' arithmetic, over numbers -/

/-- `sext_w(v)` (R6): a `w`-bit value read as two's complement. -/
def signedValue (w : Width) (v : Nat) : Int := if 2 ^ (w.bits - 1) ≤ v then (v : Int) - 2 ^ w.bits else v

/-- An exact signed result lies outside `[-2^(w-1), 2^(w-1) - 1]` (R160). -/
def outOfRange (w : Width) (r : Int) : Bool := decide (r < -2 ^ (w.bits - 1)) || decide (2 ^ (w.bits - 1) ≤ r)

/-- n and z describe a `w`-bit result (R8 `SetNZ`). -/
abbrev State.nzOf (t : State) (w : Width) (r : Nat) : Prop :=
  t.flag .n = decide (2 ^ (w.bits - 1) ≤ r) ∧ t.flag .z = decide (r = 0)

/-- At width 8, `B` is kept (R21). -/
abbrev keepsB (w : Width) (s t : State) : Prop := w = .w8 → hiByte t.c = hiByte s.c

/-- The result of a modifying operation on a `w`-bit value with a carry in (R167, R170, R182, R185, R187, R189). -/
def ModifyOp.result (w : Width) (cin : Bool) (v : Nat) : ModifyOp → Nat
  | .asl => 2 * v % 2 ^ w.bits
  | .lsr => v / 2
  | .rol => (2 * v + cin.toNat) % 2 ^ w.bits
  | .ror => v / 2 + cin.toNat * 2 ^ (w.bits - 1)
  | .inc => (v + 1) % 2 ^ w.bits
  | .dec => (v + 2 ^ w.bits - 1) % 2 ^ w.bits

/-- The carry after a modifying operation: the bit shifted out, or the old carry. -/
def ModifyOp.carry (w : Width) (cin : Bool) (v : Nat) : ModifyOp → Bool
  | .asl | .rol => decide (2 ^ (w.bits - 1) ≤ v)
  | .lsr | .ror => decide (v % 2 = 1)
  | .inc | .dec => cin

end Sys2Proof.Machine
end

