-- ==== Sys2Proof/Certificates/Slice0/Obligations.lean ====
section
/-! DEFINITION. The statements for the provers, each a proposition about the machine. The docstring says what a
statement claims and which rules of the spec it rests on; `OBLIGATIONS.json` lists them in this order. -/

open Sys2Proof Sys2Proof.Machine

/-- O1. For every instruction that is well formed under the width flags m and x, with every operand at every value,
decoding its encoded bytes followed by any bytes gives that instruction and leaves exactly the bytes that follow.
(30_encoding.md R92, 30_encoding.md R94, 30_encoding.md R95, 30_encoding.md R106.) -/
def Obligations.DecodeEncode : Prop :=
  ∀ (m x : Bool) (i : Instr) (rest : List Byte), i.wf m x = true → decode m x (encode i ++ rest) = .ok (i, rest)

/-- O2. If a list of bytes decodes under the flags m and x to an instruction with some bytes left, the instruction is
well formed under m and x, and its encoding followed by the bytes left is the whole list. (30_encoding.md R92,
30_encoding.md R93, 30_encoding.md R95.) -/
def Obligations.EncodeDecode : Prop :=
  ∀ (m x : Bool) (bytes : List Byte) (i : Instr) (rest : List Byte), decode m x bytes = .ok (i, rest) →
    i.wf m x = true ∧ encode i ++ rest = bytes

/-- O3. For any values of the flags m and x, any opcode byte and any three bytes after it, decoding answers an
instruction; its encoding begins with the opcode byte and is one to four bytes long. (30_encoding.md R91,
30_encoding.md R95, 30_encoding.md R98.) -/
def Obligations.DecodeTotal : Prop :=
  ∀ (m x : Bool) (op a b c : Byte), ∃ (i : Instr) (rest : List Byte),
    decode m x [op, a, b, c] = .ok (i, rest) ∧ (encode i).head? = some op ∧ 1 ≤ (encode i).length ∧
      (encode i).length ≤ 4

/-- O4. Nine instruction words, written out byte by byte from the encoding tables, decode to the instructions they
stand for: one of each family of the opcode table, among them both widths of one immediate. (30_encoding.md R92,
30_encoding.md R94, 30_encoding.md R96, 30_encoding.md R106.) -/
def Obligations.SampleWordsDecode : Prop :=
  decode true true [0x69, 0x50, 0x00, 0x00] = .ok (.adcImm (.byte 0x50), [0x00, 0x00]) ∧
    decode false true [0x69, 0x50, 0x12, 0x00] = .ok (.adcImm (.word 0x1250), [0x00]) ∧
    decode true true [0x7E, 0x34, 0x12, 0x00] = .ok (.rorAbsX 0x1234, [0x00]) ∧
    decode true true [0x22, 0x56, 0x34, 0x12] = .ok (.jsl 0x123456, []) ∧
    decode true true [0x00, 0xEA, 0x00, 0x00] = .ok (.brk 0xEA, [0x00, 0x00]) ∧
    decode true true [0xC2, 0x30, 0x00, 0x00] = .ok (.rep 0x30, [0x00, 0x00]) ∧
    decode true true [0x97, 0x10, 0x00, 0x00] = .ok (.staDpIndLY 0x10, [0x00, 0x00]) ∧
    decode true true [0x54, 0x34, 0x12, 0x00] = .ok (.mvn 0x34 0x12, [0x00]) ∧
    decode true true [0xF4, 0x34, 0x12, 0x00] = .ok (.pea 0x1234, [0x00]) ∧
    decode true true [0xBB, 0x00, 0x00, 0x00] = .ok (.tyx, [0x00, 0x00, 0x00])

/-- O5. When nothing at the boundary keeps the processor from executing (no reset, not stopped, not waiting, no NMI,
no unmasked IRQ) and the bytes fetched at PBR:PC decode under the flags m and x to an instruction, the step is that
instruction executed, with the host inputs of this step consumed (nextInput: the platform's answers for this step
stand ready, the schedule moves on) before the fetch. (60_exceptions.md R349, 30_encoding.md R95.) -/
def Obligations.StepRunsDecodedInstruction : Prop :=
  ∀ (s : State) (i : Instr) (rest : List Byte), s.undisturbed →
    decode (s.flag .m) (s.flag .x) s.nextInput.fetchBytes = .ok (i, rest) → step s = exec i s.nextInput

/-- O6. When the boundary is undisturbed and fetches read the encoded bytes of a well-formed instruction at the
offsets PC, PC + 1 and so on of bank PBR (each offset modulo 2^16), once the host inputs of the step are taken in,
the step executes that instruction. For JSL and JSR (abs,X), whose last fetched byte is read after pushes, it is a
premise that the pushes do not change that byte. (20_memory.md R66, 10_state.md R28, 60_exceptions.md R349.) -/
def Obligations.StepFetchesAtProgramCounter : Prop :=
  ∀ (s : State) (i : Instr), s.undisturbed → i.wf (s.flag .m) (s.flag .x) = true →
    let t := s.nextInput
    (∀ (k : Nat) (h : k < (encode i).length),
      t.readByte .fetch (BitVec.ofNat 24 (s.pbr.toNat * 65536 + (s.pc.toNat + k) % 65536)) = (encode i)[k]) →
    ((∃ target, i = .jsl target) → (t.pushN8 s.pbr).instrByte 3 = t.instrByte 3) →
    ((∃ abs, i = .jsrAbsXInd abs) → (t.pushN16 (s.pc + 2)).instrByte 2 = t.instrByte 2) → step s = exec i t

/-- O7. From every state, every instruction executed and every step answers a next state: no fault and no refusal.
(60_exceptions.md R342, 30_encoding.md R98, 20_memory.md R74, R78, R81, 92_eei_decisions.md D6, D7, D9.) That every
opcode is defined and that no access and no instruction faults is the spec's (R98, R74, R342). That nothing is
refused is the model's choice: the spec recommends that a model refuse the cases of D6 (log entry 7), of D7 (log
entry 8), of D9 (log entry 9) and of R78 (log entry 12), where the model takes the fallback or the accesses as
listed, and it lets a read of an undefined location fault (R81; log entry 2), where the model draws. -/
def Obligations.EveryStepAnswersNext : Prop :=
  (∀ (i : Instr) (s : State), ∃ t, exec i s = .next t) ∧ ∀ s : State, ∃ t, step s = .next t

/-- O8. For every state that satisfies the mode invariants (E = 1 implies m = x = 1 and SH = 0x01; x = 1 implies XH =
YH = 0) and whose memory has the canonical form, if the step answers a next state, that state does too. (10_state.md
R42, 10_state.md R46, 60_exceptions.md R349.) -/
def Obligations.StepKeepsInvariants : Prop :=
  ∀ s t : State, s.Inv → step s = .next t → t.Inv

/-- O9. State.reset is in emulation mode with m = x = i = 1 and d = 0, D, DBR and PBR zero, SH = 0x01, XH = YH = 0,
neither stopped nor waiting, no NMI pending, and it satisfies the mode invariants and the canonical form of memory.
The start of a run on any MEM_INIT in canonical form, with any IO_REGION and any host inputs, is so too; its PC is
the word at 0x00FFFC of that memory where that is no device address, and memory, IO_REGION and inputs are those
given. The items the spec leaves unspecified are not spoken of. (10_state.md R48, 10_state.md R42,
70_reset_and_hazards.md R380, 92_eei_decisions.md D8.) The PC of State.reset, whose memory holds no reset vector, is
the model's choice (log entry 1) and is not spoken of. -/
def Obligations.ResetState : Prop :=
  let atReset := fun t : State =>
    t.Inv ∧ t.e = true ∧ t.flag .m = true ∧ t.flag .x = true ∧ t.flag .d = false ∧ t.flag .i = true ∧ t.d = 0 ∧
      t.dbr = 0 ∧ t.pbr = 0 ∧ hiByte t.s = 0x01 ∧ hiByte t.x = 0 ∧ hiByte t.y = 0 ∧ t.stopped = false ∧
      t.waiting = false ∧ t.nmiPending = false
  atReset State.reset ∧
    ∀ (memInit : Memory) (ioRegion : List (Nat × Nat)) (inputs : List HostInput), memInit.wf = true →
      let t := State.start memInit ioRegion inputs
      atReset t ∧ t.mem = memInit ∧ t.ioRegion = ioRegion ∧ t.inputs = inputs ∧
        (t.isDevice 0x00FFFC = false → t.isDevice 0x00FFFD = false →
          t.pc.toNat = (memInit.read 0xFFFC).toNat + 256 * (memInit.read 0xFFFD).toNat)

/-- O10. For every instruction and every state that satisfies the mode invariants: the instruction answers a next
state, and every flag that the flags string of its opcode-table row leaves blank keeps its value. (00_scope.md R7,
30_encoding.md R102, 10_state.md R42.) -/
def Obligations.FlagsFrame : Prop :=
  ∀ (i : Instr) (s : State), s.modeOk →
    ∃ t, exec i s = .next t ∧ ∀ f, f ∉ flagsWritten i → t.flag f = s.flag f

/-- O11. For every instruction and every state that satisfies the mode invariants: the instruction answers a next
state in which C, X, Y, S, D, DBR, PBR, E, Stopped, Waiting, NmiPending and the draw counter keep their values, each
unless regsWritten lists it for the instruction (its destination, a stack pointer it moves, the registers Normalize
may clear), and IO_REGION, the platform's answers and the schedule of host inputs are kept. (10_state.md section 2
(R20 to R26), 10_state.md R40, 10_state.md R42, 10_state.md R45.) -/
def Obligations.RegistersFrame : Prop :=
  ∀ (i : Instr) (s : State), s.modeOk →
    ∃ t, exec i s = .next t ∧ t.ioRegion = s.ioRegion ∧ t.io = s.io ∧ t.inputs = s.inputs ∧
      ∀ r, r ∉ regsWritten i → t.reg r = s.reg r

/-- O12. For every instruction and every state: the instruction answers a next state, and every byte of memory at an
address that stores does not list is as before. stores computes the addresses from the state before the instruction:
those of the location of a storing, modifying or testing form at its width, of the pushes of a push, call or software
interrupt, the destination of a block move; and none for every other instruction. (20_memory.md R61, 20_memory.md
R65, 20_memory.md R68, R70, 40_addressing_modes.md R148.) The pushes of PEA, PEI, PER, PHD, JSL and JSR (abs,X) are
at the addresses of R70, with S counted as sixteen bits; in emulation mode at the edge of page 1 that is the fallback
of D7 that the model takes (log entry 8). The location of a direct-page form in emulation mode with a low byte of D
that is not zero is the fallback of D6 (log entry 7). -/
def Obligations.MemoryFrame : Prop :=
  ∀ (i : Instr) (s : State),
    ∃ t, exec i s = .next t ∧ ∀ a : Addr, a ∉ stores s i → t.byteAt a = s.byteAt a

/-- O13. For every instruction that does not redirect control and every state, the instruction answers a next state
whose PC is the old one plus the length of the instruction, modulo 2^16. (10_state.md R28, 20_memory.md R66,
30_encoding.md R95.) -/
def Obligations.ProgramCounterAdvances : Prop :=
  ∀ (i : Instr) (s : State), redirects i = false →
    ∃ t, exec i s = .next t ∧ t.pc.toNat = (s.pc.toNat + (encode i).length) % 65536

/-- O14. If a step with the RESET line not asserted answers a next state whose E differs, then the bytes fetched at
PBR:PC, once the host inputs of the step are taken in, decode to XCE. (10_state.md R40, 60_exceptions.md R361.) -/
def Obligations.EmulationBitChangesOnlyByXce : Prop :=
  ∀ s t : State, s.input.reset = false → step s = .next t → t.e ≠ s.e →
    ∃ rest, decode (s.flag .m) (s.flag .x) s.nextInput.fetchBytes = .ok (.xce, rest)

/-- O15. For the fifteen forms of ADC with d = 0: the accumulator at width w becomes a + m + c modulo 2^w, c says the
sum reached 2^w, v says the signed sum is outside the signed range of width w, n and z describe the result, B is kept
at width 8; nothing but C, these flags and PC changes. (41_arithmetic.md R160, 41_arithmetic.md R163.) -/
def Obligations.AdcBinary : Prop :=
  ∀ (i : Instr) (o : Operand) (s : State), readRow i = some (.adc, o) → s.flag .d = false →
    let w := s.wA
    let a := (s.areg w).toNat
    let m := (o.value s w).toNat
    let c := (s.flag .c).toNat
    ∃ t, exec i s = .next t ∧ (t.areg w).toNat = (a + m + c) % 2 ^ w.bits ∧
      t.flag .c = decide (2 ^ w.bits ≤ a + m + c) ∧
      t.flag .v = outOfRange w (signedValue w a + signedValue w m + c) ∧
      t.nzOf w ((a + m + c) % 2 ^ w.bits) ∧ keepsB w s t ∧ keepsFlags s t [.n, .v, .z, .c] ∧
      goesOn i s t ∧ t = { s with c := t.c, p := t.p, pc := t.pc }

/-- O16. For the fifteen forms of SBC with d = 0: the accumulator at width w becomes a - m - (1 - c) modulo 2^w, c
says the exact difference is not negative, v says the signed difference is outside the signed range of width w, n and
z describe the result, B is kept at width 8; nothing but C, these flags and PC changes. (41_arithmetic.md R160,
41_arithmetic.md R173.) -/
def Obligations.SbcBinary : Prop :=
  ∀ (i : Instr) (o : Operand) (s : State), readRow i = some (.sbc, o) → s.flag .d = false →
    let w := s.wA
    let a := (s.areg w).toNat
    let m := (o.value s w).toNat
    let borrow : Nat := if s.flag .c then 0 else 1
    let r := (a + 2 ^ (w.bits + 1) - m - borrow) % 2 ^ w.bits
    ∃ t, exec i s = .next t ∧ (t.areg w).toNat = r ∧ t.flag .c = decide (m + borrow ≤ a) ∧
      t.flag .v = outOfRange w (signedValue w a - signedValue w m - borrow) ∧
      t.nzOf w r ∧ keepsB w s t ∧ keepsFlags s t [.n, .v, .z, .c] ∧
      goesOn i s t ∧ t = { s with c := t.c, p := t.p, pc := t.pc }

/-- O17. For the fifteen forms of ADC with d = 1 and both operands valid BCD: the accumulator at width w is valid BCD
and stands for the decimal sum with the carry, modulo 100 or 10000; c says the sum reached that modulus; n and z
describe the result; v is the draw DECIMAL_V of this draw number, a free value, and the draw counter goes up by one;
B is kept at width 8; nothing else but PC changes. (41_arithmetic.md R161, 41_arithmetic.md R163.) The value of v is
free (log entry 4): the statement holds for every value of the draw. -/
def Obligations.AdcDecimal : Prop :=
  ∀ (i : Instr) (o : Operand) (s : State), readRow i = some (.adc, o) → s.flag .d = true →
    bcdValid (s.areg s.wA) = true → bcdValid (o.value s s.wA) = true →
    let w := s.wA
    let sum := bcdVal (s.areg w) + bcdVal (o.value s w) + (s.flag .c).toNat
    ∃ t, exec i s = .next t ∧ bcdValid (t.areg w) = true ∧ bcdVal (t.areg w) = sum % bcdModulus w ∧
      t.flag .c = decide (bcdModulus w ≤ sum) ∧ t.flag .v = Config.decimalV s.draws ∧
      t.nzOf w (t.areg w).toNat ∧ keepsB w s t ∧ keepsFlags s t [.n, .v, .z, .c] ∧ goesOn i s t ∧
      t = { s with c := t.c, p := t.p, pc := t.pc, draws := s.draws + 1 }

/-- O18. For the fifteen forms of SBC with d = 1 and both operands valid BCD: the accumulator at width w is valid BCD
and stands for the non-negative residue, modulo 100 or 10000, of the decimal difference less the borrow; c says the
difference is not negative; n and z describe the result; v is the draw DECIMAL_V, a free value, and the draw counter
goes up by one; B is kept at width 8; nothing else but PC changes. (41_arithmetic.md R161, 41_arithmetic.md R173.)
The value of v is free (log entry 4): the statement holds for every value of the draw. -/
def Obligations.SbcDecimal : Prop :=
  ∀ (i : Instr) (o : Operand) (s : State), readRow i = some (.sbc, o) → s.flag .d = true →
    bcdValid (s.areg s.wA) = true → bcdValid (o.value s s.wA) = true →
    let w := s.wA
    let difference : Int := (bcdVal (s.areg w) : Int) - bcdVal (o.value s w) - (if s.flag .c then 0 else 1)
    ∃ t, exec i s = .next t ∧ bcdValid (t.areg w) = true ∧
      (bcdVal (t.areg w) : Int) = difference % (bcdModulus w : Int) ∧
      t.flag .c = decide (0 ≤ difference) ∧ t.flag .v = Config.decimalV s.draws ∧
      t.nzOf w (t.areg w).toNat ∧ keepsB w s t ∧ keepsFlags s t [.n, .v, .z, .c] ∧ goesOn i s t ∧
      t = { s with c := t.c, p := t.p, pc := t.pc, draws := s.draws + 1 }

/-- O19. For ADC and SBC with d = 1 when the accumulator or the operand is not valid BCD: the instruction completes,
the accumulator at width w and the flags n, v, z, c are the draw DECIMAL_INVALID of this draw number, the draw
counter goes up by one, B is kept at width 8, and nothing else but PC changes. (41_arithmetic.md R161,
92_eei_decisions.md D5.) Rests on the model's form of the draw (log entry 5); the statement holds for every value of
it. -/
def Obligations.DecimalInvalid : Prop :=
  ∀ (i : Instr) (op : ReadOp) (o : Operand) (s : State), readRow i = some (op, o) → op = .adc ∨ op = .sbc →
    s.flag .d = true → (bcdValid (s.areg s.wA) && bcdValid (o.value s s.wA)) = false →
    let w := s.wA
    ∃ t, exec i s = .next t ∧ t.areg w = trunc w (Config.decimalInvalidResult s.draws) ∧
      (∀ f, f ∈ [Flag.n, .v, .z, .c] → t.flag f = Config.decimalInvalidFlag f s.draws) ∧ keepsB w s t ∧
      keepsFlags s t [.n, .v, .z, .c] ∧ goesOn i s t ∧
      t = { s with c := t.c, p := t.p, pc := t.pc, draws := s.draws + 1 }

/-- O20. For the fifteen forms of CMP at width m selects and the three forms each of CPX and CPY at the width x
selects: c says the register is at least the operand, unsigned; z says they are equal; n is the top bit of the
difference modulo 2^w; nothing else changes but PC, which moves past the instruction. (R162, R164, R165, R166.) -/
def Obligations.Compare : Prop :=
  ∀ (i : Instr) (op : ReadOp) (o : Operand) (reg : Word) (s : State), readRow i = some (op, o) →
    (op, reg) ∈ [(.cmp, s.areg s.wA), (.cpx, trunc s.wX s.x), (.cpy, trunc s.wX s.y)] →
    let w := op.width s
    let m := (o.value s w).toNat
    ∃ t, exec i s = .next t ∧ t.flag .c = decide (m ≤ reg.toNat) ∧ t.flag .z = decide (reg.toNat = m) ∧
      t.flag .n = decide (2 ^ (w.bits - 1) ≤ (reg.toNat + 2 ^ w.bits - m) % 2 ^ w.bits) ∧
      keepsFlags s t [.n, .z, .c] ∧ goesOn i s t ∧ t = { s with p := t.p, pc := t.pc }

/-- O21. For the five forms of BIT at the width m selects: z says the AND of accumulator and operand is zero; a
memory form also sets n to the top bit and v to the next bit of the operand; the immediate form keeps n and v;
nothing else changes but PC, which moves past the instruction. (R183.) -/
def Obligations.BitTest : Prop :=
  ∀ (i : Instr) (o : Operand) (s : State), readRow i = some (.bit, o) →
    let w := s.wA
    let m := o.value s w
    ∃ t, exec i s = .next t ∧ t.flag .z = decide (s.areg w &&& m = 0) ∧
      (match o with
        | .imm _ => keepsFlags s t [.z]
        | .mem _ => t.flag .n = decide (2 ^ (w.bits - 1) ≤ m.toNat) ∧
            t.flag .v = decide (m.toNat / 2 ^ (w.bits - 2) % 2 = 1) ∧ keepsFlags s t [.n, .v, .z]) ∧
      goesOn i s t ∧ t = { s with p := t.p, pc := t.pc }

/-- O22. For the fifteen forms each of ORA, AND, EOR and LDA at the width m selects: the accumulator receives the OR,
the AND, the exclusive OR with the operand, or the operand; n and z describe the result; B is kept at width 8;
nothing else changes but PC, which moves past the instruction. (R181, R184, R186, R270.) -/
def Obligations.LogicAndLoad : Prop :=
  ∀ (i : Instr) (op : ReadOp) (o : Operand) (r : Word) (s : State), readRow i = some (op, o) →
    (op, r) ∈ [(.ora, s.areg s.wA ||| o.value s s.wA), (.and, s.areg s.wA &&& o.value s s.wA),
      (.eor, s.areg s.wA ^^^ o.value s s.wA), (.lda, o.value s s.wA)] →
    ∃ t, exec i s = .next t ∧ t.areg s.wA = r ∧ t.nzOf s.wA r.toNat ∧ keepsB s.wA s t ∧
      keepsFlags s t [.n, .z] ∧ goesOn i s t ∧ t = { s with c := t.c, p := t.p, pc := t.pc }

/-- O23. For the five forms each of LDX and LDY at the width x selects: the index register becomes the operand
extended with zeros to 16 bits; n and z describe the operand; nothing else changes but PC, which moves past the
instruction. (R271, R272.) -/
def Obligations.LoadIndex : Prop :=
  ∀ (i : Instr) (o : Operand) (s : State),
    (readRow i = some (.ldx, o) → ∃ t, exec i s = .next t ∧ t.x.toNat = (o.value s s.wX).toNat ∧
      t.x.toNat < 2 ^ s.wX.bits ∧ t.nzOf s.wX t.x.toNat ∧ keepsFlags s t [.n, .z] ∧ goesOn i s t ∧
      t = { s with x := t.x, p := t.p, pc := t.pc }) ∧
    (readRow i = some (.ldy, o) → ∃ t, exec i s = .next t ∧ t.y.toNat = (o.value s s.wX).toNat ∧
      t.y.toNat < 2 ^ s.wX.bits ∧ t.nzOf s.wX t.y.toNat ∧ keepsFlags s t [.n, .z] ∧ goesOn i s t ∧
      t = { s with y := t.y, p := t.p, pc := t.pc })

/-- O24. For the fourteen forms of STA, three of STX, three of STY and four of STZ, at the width m (STA, STZ) or x
(STX, STY) selects: the location in memory afterwards holds the low bits of the register, or zero; every byte outside
the location is kept; no register and no flag changes but PC, which moves past the instruction. (R273, R274, R275,
R276.) -/
def Obligations.Stores : Prop :=
  ∀ (i : Instr) (op : StoreOp) (f : MemForm) (v : Word) (s : State), storeRow i = some (op, f) →
    (op, v) ∈ [(.sta, s.areg s.wA), (.stx, trunc s.wX s.x), (.sty, trunc s.wX s.y), (.stz, 0)] →
    ∃ t, exec i s = .next t ∧ t.contents (s.loc f) (op.width s) = v ∧
      keepsBytes s t (locBytes (s.loc f) (op.width s)) ∧ goesOn i s t ∧ t = { s with mem := t.mem, pc := t.pc }

/-- O25. For the six accumulator forms at the width m selects: the accumulator becomes the shifted, rotated (through
the carry), incremented or decremented value modulo 2^w; c is the bit shifted out, or unchanged for INC and DEC; n
and z describe the result; B is kept at width 8; nothing else changes but PC. (40_addressing_modes.md R137,
41_arithmetic.md R167, R170, 42_logic_shift.md R182, R185, R187, R189.) -/
def Obligations.ModifyAccumulator : Prop :=
  ∀ (i : Instr) (op : ModifyOp) (s : State), modifyRow i = some (op, none) →
    let w := s.wA
    let v := (s.areg w).toNat
    ∃ t, exec i s = .next t ∧ (t.areg w).toNat = op.result w (s.flag .c) v ∧
      t.flag .c = op.carry w (s.flag .c) v ∧ t.nzOf w (op.result w (s.flag .c) v) ∧ keepsB w s t ∧
      keepsFlags s t [.n, .z, .c] ∧ goesOn i s t ∧ t = { s with c := t.c, p := t.p, pc := t.pc }

/-- O26. For the four memory forms of each of the six instructions at the width m selects: the location in memory
afterwards holds the shifted, rotated, incremented or decremented value modulo 2^w of the operand read before; c is
the bit shifted out, or unchanged for INC and DEC; n and z describe the result; every byte outside the location is
kept; nothing else changes but PC. (42_logic_shift.md R180, 41_arithmetic.md R167, R170, 42_logic_shift.md R182,
R185, R187, R189.) -/
def Obligations.ModifyMemory : Prop :=
  ∀ (i : Instr) (op : ModifyOp) (f : MemForm) (s : State), modifyRow i = some (op, some f) →
    let w := s.wA
    let v := (s.operand f w).toNat
    ∃ t, exec i s = .next t ∧ (t.contents (s.loc f) w).toNat = op.result w (s.flag .c) v ∧
      t.flag .c = op.carry w (s.flag .c) v ∧ t.nzOf w (op.result w (s.flag .c) v) ∧
      keepsBytes s t (locBytes (s.loc f) w) ∧ keepsFlags s t [.n, .z, .c] ∧ goesOn i s t ∧
      t = { s with mem := t.mem, p := t.p, pc := t.pc }

/-- O27. For the two forms each of TRB and TSB at the width m selects: z says the AND of the accumulator and the
operand read before is zero; the location in memory afterwards holds the operand with the accumulator's bits cleared
(TRB) or set (TSB); every byte outside the location is kept; nothing else changes but PC, which moves past the
instruction. (R190, R191.) -/
def Obligations.TestAndSetBits : Prop :=
  ∀ (i : Instr) (set : Bool) (f : MemForm) (s : State), testRow i = some (set, f) →
    let w := s.wA
    let a := s.areg w
    let v := s.operand f w
    ∃ t, exec i s = .next t ∧ t.flag .z = decide (a &&& v = 0) ∧
      t.contents (s.loc f) w = (if set then v ||| a else v &&& ~~~a) ∧
      keepsBytes s t (locBytes (s.loc f) w) ∧ keepsFlags s t [.z] ∧ goesOn i s t ∧
      t = { s with mem := t.mem, p := t.p, pc := t.pc }

/-- O28. At the width x selects: INX and DEX replace X, INY and DEY replace Y, by the register plus or minus one
modulo 2^w, extended with zeros; n and z describe the result; nothing else changes but PC, which moves past the
instruction. (R168, R169, R171, R172.) -/
def Obligations.IncrementIndex : Prop :=
  ∀ s : State,
    (∀ i r, (i, r) ∈ [(Instr.inx, (s.x.toNat + 1) % 2 ^ s.wX.bits),
        (.dex, (s.x.toNat + 2 ^ s.wX.bits - 1) % 2 ^ s.wX.bits)] →
      ∃ t, exec i s = .next t ∧ t.x.toNat = r ∧ t.nzOf s.wX r ∧ keepsFlags s t [.n, .z] ∧ goesOn i s t ∧
        t = { s with x := t.x, p := t.p, pc := t.pc }) ∧
    (∀ i r, (i, r) ∈ [(Instr.iny, (s.y.toNat + 1) % 2 ^ s.wX.bits),
        (.dey, (s.y.toNat + 2 ^ s.wX.bits - 1) % 2 ^ s.wX.bits)] →
      ∃ t, exec i s = .next t ∧ t.y.toNat = r ∧ t.nzOf s.wX r ∧ keepsFlags s t [.n, .z] ∧ goesOn i s t ∧
        t = { s with y := t.y, p := t.p, pc := t.pc })

/-- O29. At the width w that x selects: TAX, TSX and TYX put the low w bits of C, S and Y into X; TAY and TXY put
those of C and X into Y; the rest of the register is zero; n and z describe the bits moved; nothing else changes but
PC, which moves past the instruction. (R320, R321, R326, R329, R331.) -/
def Obligations.TransferIndex : Prop :=
  ∀ (i : Instr) (v : Word) (s : State),
    ((i, v) ∈ [(Instr.tax, s.c), (.tsx, s.s), (.tyx, s.y)] →
      ∃ t, exec i s = .next t ∧ t.x.toNat = v.toNat % 2 ^ s.wX.bits ∧ t.nzOf s.wX t.x.toNat ∧
        keepsFlags s t [.n, .z] ∧ goesOn i s t ∧ t = { s with x := t.x, p := t.p, pc := t.pc }) ∧
    ((i, v) ∈ [(Instr.tay, s.c), (.txy, s.x)] →
      ∃ t, exec i s = .next t ∧ t.y.toNat = v.toNat % 2 ^ s.wX.bits ∧ t.nzOf s.wX t.y.toNat ∧
        keepsFlags s t [.n, .z] ∧ goesOn i s t ∧ t = { s with y := t.y, p := t.p, pc := t.pc })

/-- O30. TXA and TYA put the low bits of X or Y, at the width m selects, into the accumulator, keeping B at width 8;
TDC and TSC put D or S into all of C whatever m is; n and z describe the bits moved at that width; nothing else
changes but PC, which moves past the instruction. (R324, R325, R327, R330.) -/
def Obligations.TransferAccumulator : Prop :=
  ∀ (i : Instr) (w : Width) (v : Word) (s : State),
    (i, w, v) ∈ [(Instr.txa, s.wA, s.x), (.tya, s.wA, s.y), (.tdc, .w16, s.d), (.tsc, .w16, s.s)] →
    ∃ t, exec i s = .next t ∧ (t.areg w).toNat = v.toNat % 2 ^ w.bits ∧ t.nzOf w (t.areg w).toNat ∧
      keepsB w s t ∧ keepsFlags s t [.n, .z] ∧ goesOn i s t ∧ t = { s with c := t.c, p := t.p, pc := t.pc }

/-- O31. In a state that satisfies the mode invariants: TCD puts C into D, n and z describing all sixteen bits; TCS
and TXS put C or X into S, but in emulation mode only its low byte, SH being 0x01; nothing else changes but PC, which
moves past the instruction. (R322, R323, R328.) -/
def Obligations.TransferToDirectAndStack : Prop :=
  ∀ s : State, s.modeOk →
    (∃ t, exec .tcd s = .next t ∧ t.d = s.c ∧ t.nzOf .w16 s.c.toNat ∧ keepsFlags s t [.n, .z] ∧
      goesOn .tcd s t ∧ t = { s with d := t.d, p := t.p, pc := t.pc }) ∧
    (∀ i v, (i, v) ∈ [(Instr.tcs, s.c), (.txs, s.x)] →
      ∃ t, exec i s = .next t ∧ t.s.toNat = (if s.e then 0x0100 + v.toNat % 256 else v.toNat) ∧
        goesOn i s t ∧ t = { s with s := t.s, pc := t.pc })

/-- O32. XBA leaves the old high byte in A and the old low byte in B, whatever m and E are; n and z describe the new
A at width 8; nothing else changes but PC, which moves past the instruction. (R332.) -/
def Obligations.ExchangeAccumulatorHalves : Prop :=
  ∀ s : State, ∃ t, exec .xba s = .next t ∧ t.c.toNat = s.c.toNat % 256 * 256 + s.c.toNat / 256 ∧
    t.nzOf .w8 (s.c.toNat / 256) ∧ keepsFlags s t [.n, .z] ∧ goesOn .xba s t ∧
    t = { s with c := t.c, p := t.p, pc := t.pc }

/-- O33. Each of the six pushes leaves the bytes of its register (pushRow: one or two for PHA by m, for PHX and PHY
by x, one for PHB, PHK and PHP) on the stack from S down, high byte first, S moved down by their number (inside page
1 in emulation mode), every other byte kept; nothing else changes but PC, which moves past the instruction. (R303,
R304, R306, R307, R308, R309.) -/
def Obligations.PushRegister : Prop :=
  ∀ (i : Instr) (bytes : List Byte) (s : State), pushRow s i = some bytes →
    ∃ t, exec i s = .next t ∧ pushed s t bytes ∧ keepsBytes s t (s.pushAddrs bytes.length) ∧
      t.s = stackBelow s.e s.s bytes.length ∧ goesOn i s t ∧ t = { s with mem := t.mem, s := t.s, pc := t.pc }

/-- O34. In a state that satisfies the mode invariants: the word (the operand for PEA; the word at D + dp of bank 0,
with no page wrap, for PEI; the next offset plus the displacement for PER; D for PHD) lies high byte at S and low
byte at S - 1 of bank 0; S is two lower, in emulation mode with SH forced to 0x01; every other byte is kept; nothing
else changes but PC, which moves past the instruction. (48_stack.md R300, R301, R302, R305, 20_memory.md R70.) In
emulation mode at the edge of page 1 this is the pseudocode of the rules, the fallback of D7 that the model takes
(log entry 8). -/
def Obligations.PushWord : Prop :=
  ∀ (i : Instr) (v : Word) (s : State), s.modeOk → pushNRow s i = some v →
    ∃ t, exec i s = .next t ∧ pushedN s t [hiByte v, loByte v] ∧ keepsBytes s t (s.pushNAddrs 2) ∧
      t.s = normalS s.e (s.s - 2) ∧ goesOn i s t ∧ t = { s with mem := t.mem, s := t.s, pc := t.pc }

/-- O35. PLA at the width m selects, PLX and PLY at the width x selects, and PLB at width 8 take their value from the
bytes above S, low byte first (B kept by PLA at width 8, the index high byte zero at width 8); S is moved up by their
number (inside page 1 in emulation mode); n and z describe the value; nothing else changes but PC, which moves past
the instruction. (48_stack.md R310, R311, R314, R315, 20_memory.md R69.) For PLB in emulation mode with SL = 0xFF
this is the pseudocode of the rule, the fallback of D7 that the model takes (log entry 8). -/
def Obligations.PullRegister : Prop :=
  ∀ s : State,
    (∃ t, exec .pla s = .next t ∧ t.areg s.wA = s.pulled s.wA ∧ keepsB s.wA s t ∧
      t.s = stackAbove s.e s.s (widthBytes s.wA) ∧ t.nzOf s.wA (s.pulled s.wA).toNat ∧ keepsFlags s t [.n, .z] ∧
      goesOn .pla s t ∧ t = { s with c := t.c, s := t.s, p := t.p, pc := t.pc }) ∧
    (∃ t, exec .plx s = .next t ∧ t.x = s.pulled s.wX ∧ t.s = stackAbove s.e s.s (widthBytes s.wX) ∧
      t.nzOf s.wX (s.pulled s.wX).toNat ∧ keepsFlags s t [.n, .z] ∧ goesOn .plx s t ∧
      t = { s with x := t.x, s := t.s, p := t.p, pc := t.pc }) ∧
    (∃ t, exec .ply s = .next t ∧ t.y = s.pulled s.wX ∧ t.s = stackAbove s.e s.s (widthBytes s.wX) ∧
      t.nzOf s.wX (s.pulled s.wX).toNat ∧ keepsFlags s t [.n, .z] ∧ goesOn .ply s t ∧
      t = { s with y := t.y, s := t.s, p := t.p, pc := t.pc }) ∧
    (∃ t, exec .plb s = .next t ∧ t.dbr = s.readByte .pull (s.pullAddr 1) ∧ t.s = stackAbove s.e s.s 1 ∧
      t.nzOf .w8 t.dbr.toNat ∧ keepsFlags s t [.n, .z] ∧ goesOn .plb s t ∧
      t = { s with dbr := t.dbr, s := t.s, p := t.p, pc := t.pc })

/-- O36. In a state that satisfies the mode invariants: PLD takes D from the two bytes at S + 1 and S + 2 of bank 0,
n and z describing all sixteen bits, S two higher (SH forced to 0x01 in emulation mode). PLP takes all eight flags,
bits 7 to 0 of P being n v m x d i z c, from the byte above S, but m and x are 1 in emulation mode, and x = 1 clears
XH and YH; S is one higher, inside page 1 in emulation mode. Nothing else changes but PC, which moves past the
instruction. (48_stack.md R312, R313, 10_state.md R30, 20_memory.md R70.) In emulation mode at the edge of page 1
this is the pseudocode of the rules, the fallback of D7 that the model takes (log entry 8). -/
def Obligations.PullDirectAndStatus : Prop :=
  ∀ s : State, s.modeOk →
    (∃ t, exec .pld s = .next t ∧ t.d = s.read16 .pull (bankAddr 0 (s.s + 1)) (bankAddr 0 (s.s + 2)) ∧
      t.s = normalS s.e (s.s + 2) ∧ t.nzOf .w16 t.d.toNat ∧ keepsFlags s t [.n, .z] ∧ goesOn .pld s t ∧
      t = { s with d := t.d, s := t.s, p := t.p, pc := t.pc }) ∧
    (∃ t, exec .plp s = .next t ∧
      (∀ f b, (f, b) ∈ [(Flag.n, 7), (.v, 6), (.m, 5), (.x, 4), (.d, 3), (.i, 2), (.z, 1), (.c, 0)] →
        t.flag f = t.p.getLsbD b ∧
          t.flag f = ((s.readByte .pull (s.pullAddr 1)).getLsbD b || (s.e && (f == .m || f == .x)))) ∧
      t.x = trunc t.wX s.x ∧ t.y = trunc t.wX s.y ∧ t.s = stackAbove s.e s.s 1 ∧ goesOn .plp s t ∧
      t = { s with x := t.x, y := t.y, s := t.s, p := t.p, pc := t.pc })

/-- O37. BCC, BCS, BEQ, BMI, BNE, BPL, BVC and BVS set PC to the offset of the next instruction, plus the
sign-extended displacement if the flag each tests has the value each tests for, modulo 2^16; nothing else changes,
PBR and the flags included. (R200, R201, R202, R203, R204, R205, R206, R209, R210.) -/
def Obligations.ConditionalBranches : Prop :=
  ∀ (i : Instr) (f : Flag) (b : Bool) (rel : Byte) (s : State), branchRow i = some (f, b, rel) →
    ∃ t, exec i s = .next t ∧
      (t.pc.toNat : Int) = ((s.pc.toNat : Int) + 2 + (if s.flag f = b then rel.toInt else 0)) % 65536 ∧
      t = { s with pc := t.pc }

/-- O38. BRA sets PC to the offset of the next instruction plus the sign-extended byte, BRL to that plus the 16-bit
displacement, modulo 2^16; nothing else changes. (R207, R208.) -/
def Obligations.BranchAlways : Prop :=
  ∀ s : State,
    (∀ rel : Byte, ∃ t, exec (.bra rel) s = .next t ∧
      (t.pc.toNat : Int) = ((s.pc.toNat : Int) + 2 + rel.toInt) % 65536 ∧ t = { s with pc := t.pc }) ∧
    (∀ rel : Word, ∃ t, exec (.brl rel) s = .next t ∧
      t.pc.toNat = (s.pc.toNat + 3 + rel.toNat) % 65536 ∧ t = { s with pc := t.pc })

/-- O39. JMP abs goes to the operand; JMP (abs) to the word at the operand in bank 0; JMP (abs,X) to the word at the
operand plus X, modulo 2^16, in the program bank; these keep PBR. JML abslong goes to the operand, JML [abs] to the
three-byte pointer at the operand in bank 0, setting PBR too. Pointers wrap inside their bank. Nothing else changes.
(R211, R212.) -/
def Obligations.Jumps : Prop :=
  ∀ (abs : Word) (long : Addr) (s : State),
    let m := fun n : Nat => (s.readByte .pointer (BitVec.ofNat 24 n)).toNat
    (∃ t, exec (.jmpAbs abs) s = .next t ∧ t.pc = abs ∧ t = { s with pc := t.pc }) ∧
    (∃ t, exec (.jmpAbsInd abs) s = .next t ∧
      t.pc.toNat = m abs.toNat + 256 * m ((abs.toNat + 1) % 65536) ∧ t = { s with pc := t.pc }) ∧
    (∃ t, exec (.jmpAbsXInd abs) s = .next t ∧
      t.pc.toNat = m (s.pbr.toNat * 65536 + (abs.toNat + s.x.toNat) % 65536) +
        256 * m (s.pbr.toNat * 65536 + (abs.toNat + s.x.toNat + 1) % 65536) ∧ t = { s with pc := t.pc }) ∧
    (∃ t, exec (.jmlLong long) s = .next t ∧ t.pbr.toNat * 65536 + t.pc.toNat = long.toNat ∧
      t = { s with pbr := t.pbr, pc := t.pc }) ∧
    (∃ t, exec (.jmlAbsIndL abs) s = .next t ∧
      t.pc.toNat = m abs.toNat + 256 * m ((abs.toNat + 1) % 65536) ∧
      t.pbr.toNat = m ((abs.toNat + 2) % 65536) ∧ t = { s with pbr := t.pbr, pc := t.pc })

/-- O40. JSR abs leaves the offset of its own last byte on the stack, high byte first, with S two lower (inside page
1 in emulation mode), and goes to the operand. JSR (abs,X), in a state that satisfies the mode invariants, does the
same with S counted as sixteen bits (SH forced in emulation mode), and goes to the word at the operand plus X in the
program bank, as it reads after the pushes. Every other byte, register and flag is kept. (43_control_transfer.md
R214, 20_memory.md R68, R70, R71.) In emulation mode at the edge of page 1 this is the pseudocode of the rules, the
fallback of D7 that the model takes (log entry 8). -/
def Obligations.CallsInsideBank : Prop :=
  ∀ (abs : Word) (s : State),
    let ret := s.pc + 2
    (∃ t, exec (.jsrAbs abs) s = .next t ∧ pushed s t [hiByte ret, loByte ret] ∧
      keepsBytes s t (s.pushAddrs 2) ∧ t.s = stackBelow s.e s.s 2 ∧ t.pc = abs ∧
      t = { s with mem := t.mem, s := t.s, pc := t.pc }) ∧
    (s.modeOk → ∃ t, exec (.jsrAbsXInd abs) s = .next t ∧ pushedN s t [hiByte ret, loByte ret] ∧
      keepsBytes s t (s.pushNAddrs 2) ∧ t.s = normalS s.e (s.s - 2) ∧
      t.pc = t.read16 .pointer (bankAddr s.pbr (abs + s.x)) (bankAddr s.pbr (abs + s.x + 1)) ∧
      t = { s with mem := t.mem, s := t.s, pc := t.pc })

/-- O41. In a state that satisfies the mode invariants, JSL leaves PBR, then the high and the low byte of the offset
of its own last byte, at S, S - 1 and S - 2 of bank 0; S is three lower, in emulation mode with SH forced to 0x01;
PBR and PC are the operand; every other byte, register and flag is kept. (43_control_transfer.md R213, 20_memory.md
R70.) In emulation mode at the edge of page 1 this is the pseudocode of the rules, the fallback of D7 that the model
takes (log entry 8). -/
def Obligations.CallLong : Prop :=
  ∀ (long : Addr) (s : State), s.modeOk →
    ∃ t, exec (.jsl long) s = .next t ∧ pushedN s t [s.pbr, hiByte (s.pc + 3), loByte (s.pc + 3)] ∧
      keepsBytes s t (s.pushNAddrs 3) ∧ t.s = normalS s.e (s.s - 3) ∧
      t.pbr.toNat * 65536 + t.pc.toNat = long.toNat ∧
      t = { s with mem := t.mem, s := t.s, pbr := t.pbr, pc := t.pc }

/-- O42. RTS takes PC from the two bytes above S, low byte first, plus one modulo 2^16, with S two higher (inside
page 1 in emulation mode). RTL, in a state that satisfies the mode invariants, takes PC likewise from S + 1 and S + 2
and PBR from S + 3 of bank 0, S counted as sixteen bits and three higher (SH forced to 0x01 in emulation mode).
Nothing else changes. (43_control_transfer.md R215, R216, 20_memory.md R70.) In emulation mode at the edge of page 1
this is the pseudocode of the rules, the fallback of D7 that the model takes (log entry 8). -/
def Obligations.Returns : Prop :=
  ∀ s : State,
    (∃ t, exec .rts s = .next t ∧ t.pc = s.read16 .pull (s.pullAddr 1) (s.pullAddr 2) + 1 ∧
      t.s = stackAbove s.e s.s 2 ∧ t = { s with s := t.s, pc := t.pc }) ∧
    (s.modeOk → ∃ t, exec .rtl s = .next t ∧
      t.pc = s.read16 .pull (bankAddr 0 (s.s + 1)) (bankAddr 0 (s.s + 2)) + 1 ∧
      t.pbr = s.readByte .pull (bankAddr 0 (s.s + 3)) ∧ t.s = normalS s.e (s.s + 3) ∧
      t = { s with s := t.s, pbr := t.pbr, pc := t.pc })

/-- O43. After JSR abs, in any later state with the same E and S in which pulls read at the two pushed addresses what
the call stored there, RTS sets PC to the offset after the JSR and S to what it was before it. After JSL, made in
native mode or in emulation mode with SH = 0x01 and SL at least 3, in any later state that satisfies the mode
invariants, with the same E and S and pulls that read at the three pushed addresses what the call stored there, RTL
does so too and gives PBR back. (43_control_transfer.md R213 to R216, R218, 20_memory.md R68 to R71.) -/
def Obligations.CallThenReturn : Prop :=
  ∀ s t h : State, h.e = s.e → h.s = t.s →
    (∀ abs, exec (.jsrAbs abs) s = .next t → (∀ a ∈ s.pushAddrs 2, h.readByte .pull a = t.byteAt a) →
      ∃ u, exec .rts h = .next u ∧ u.pc = s.pc + 3 ∧ u.s = s.s ∧ u = { h with s := u.s, pc := u.pc }) ∧
    (∀ long, s.e = false ∨ (hiByte s.s = 0x01 ∧ 3 ≤ (loByte s.s).toNat) → h.modeOk →
      exec (.jsl long) s = .next t → (∀ a ∈ s.pushNAddrs 3, h.readByte .pull a = t.byteAt a) →
      ∃ u, exec .rtl h = .next u ∧ u.pc = s.pc + 4 ∧ u.pbr = s.pbr ∧ u.s = s.s ∧
        u = { h with s := u.s, pbr := u.pbr, pc := u.pc })

/-- O44. BRK and COP push PBR (in native mode only), the offset after the signature byte, high byte first, and P;
they set i, clear d, set PBR to zero and PC to the word at the vector in bank 0 (BRK 0xFFE6 native and 0xFFFE
emulation, COP 0xFFE4 native and 0xFFF4 emulation), as it reads after the pushes; S is moved down by the three or
four bytes, inside page 1 in emulation mode; every other byte, register and flag is kept. (R230, R231.) -/
def Obligations.SoftwareInterrupts : Prop :=
  ∀ (i : Instr) (sig : Byte) (vec : Word) (s : State),
    (i, vec) ∈ [(Instr.brk sig, if s.e then 0xFFFE else 0xFFE6), (.cop sig, if s.e then 0xFFF4 else 0xFFE4)] →
    ∃ t, exec i s = .next t ∧ entered s t (s.pc + 2) s.p vec

/-- O45. In a step with no reset and not stopped: if an NMI edge arrives or one is latched, the NMI is entered
through 0xFFEA (native) or 0xFFFA (emulation), whatever i is and whether or not an IRQ is asserted, and the latch is
cleared; otherwise, if the IRQ line is asserted and i = 0, the IRQ is entered through 0xFFEE or 0xFFFE. The frame
holds PC unchanged and P, with bit 4 clear in emulation mode; a wait ends; the inputs of the step are consumed;
everything else is as for BRK. (60_exceptions.md R341, R343, R344, 60_exceptions.md R347 to R349, 60_exceptions.md
R353.) -/
def Obligations.HardwareInterrupts : Prop :=
  (∀ s : State, s.input.reset = false → s.stopped = false → s.nmiPending = true ∨ s.input.nmi = true →
    ∃ t, step s = .next t ∧
      entered { s.nextInput with waiting := false, nmiPending := false } t s.pc
        (if s.e then s.p &&& 0xEF else s.p) (if s.e then 0xFFFA else 0xFFEA)) ∧
  (∀ s : State, s.input.reset = false → s.stopped = false → s.nmiPending = false → s.input.nmi = false →
    s.input.irq = true → s.flag .i = false →
    ∃ t, step s = .next t ∧
      entered { s.nextInput with waiting := false } t s.pc
        (if s.e then s.p &&& 0xEF else s.p) (if s.e then 0xFFFE else 0xFFEE))

/-- O46. In a state that satisfies the mode invariants: every flag is the bit of the first byte above S, but m and x
are 1 in emulation mode; x = 1 clears XH and YH; PC is the word in the next two bytes, low byte first, with no
increment; in native mode PBR is the fourth byte, in emulation mode it is kept; S is moved up by four or three,
inside page 1 in emulation mode; nothing else changes. (R233.) -/
def Obligations.ReturnFromInterrupt : Prop :=
  ∀ s : State, s.modeOk →
    ∃ t, exec .rti s = .next t ∧
      (∀ f, t.flag f = ((s.readByte .pull (s.pullAddr 1)).getLsbD (flagBit f) || (s.e && (f == .m || f == .x)))) ∧
      t.x = trunc t.wX s.x ∧ t.y = trunc t.wX s.y ∧ t.pc = s.read16 .pull (s.pullAddr 2) (s.pullAddr 3) ∧
      t.pbr = (if s.e then s.pbr else s.readByte .pull (s.pullAddr 4)) ∧ t.s = stackAbove s.e s.s (frameBytes s.e) ∧
      t = { s with x := t.x, y := t.y, s := t.s, pbr := t.pbr, p := t.p, pc := t.pc }

/-- O47. Let an event be entered from a state that satisfies the mode invariants: a hardware interrupt by a step
(return offset the old PC), or a BRK or COP executed (return offset the old PC plus 2). In any later state that
satisfies the mode invariants, with the E and S that the entry left and pulls that read the frame as the entry stored
it, RTI gives back P, S and the return offset, and in native mode PBR (in emulation mode PBR stays the handler's);
memory and all registers but X and Y, P, S, PC and PBR are as the handler left them. (60_exceptions.md R348, R350,
R351, 44_system.md R233.) -/
def Obligations.InterruptThenReturn : Prop :=
  ∀ (s t h : State) (ret : Word), s.modeOk → h.modeOk →
    ((s.input.reset = false ∧ s.stopped = false ∧
        (s.nmiPending = true ∨ s.input.nmi = true ∨ (s.input.irq = true ∧ s.flag .i = false)) ∧
        step s = .next t ∧ ret = s.pc) ∨
      (∃ sig, (exec (.brk sig) s = .next t ∨ exec (.cop sig) s = .next t) ∧ ret = s.pc + 2)) →
    h.e = t.e → h.s = t.s → (∀ a ∈ s.pushAddrs (frameBytes s.e), h.readByte .pull a = t.byteAt a) →
    ∃ u, exec .rti h = .next u ∧ u.p = s.p ∧ u.pc = ret ∧ u.s = s.s ∧ u.e = s.e ∧
      u.pbr = (if s.e then h.pbr else s.pbr) ∧
      u = { h with x := u.x, y := u.y, s := u.s, pbr := u.pbr, p := u.p, pc := u.pc }

/-- O48. NOP moves PC on by one and WDM by two, and nothing else changes; STP and WAI move PC on by one and set
Stopped or Waiting, and nothing else changes. (44_system.md R232, R234 to R236.) -/
def Obligations.NopReservedStopWait : Prop :=
  ∀ (sig : Byte) (s : State), exec .nop s = .next { s with pc := s.pc + 1 } ∧
    exec (.wdm sig) s = .next { s with pc := s.pc + 2 } ∧
    exec .stp s = .next { s with pc := s.pc + 1, stopped := true } ∧
    exec .wai s = .next { s with pc := s.pc + 1, waiting := true }

/-- O49. Each of the seven instructions gives its flag its value (CLC c 0, CLD d 0, CLI i 0, CLV v 0, SEC c 1, SED d
1, SEI i 1), keeps the other seven flags, moves PC on by one, and changes nothing else. (45_status_flags.md R250,
R251, R252, R253, 45_status_flags.md R255, R256, R257.) -/
def Obligations.FlagInstructions : Prop :=
  ∀ (i : Instr) (f : Flag) (b : Bool) (s : State), flagRow i = some (f, b) →
    ∃ t, exec i s = .next t ∧ t.flag f = b ∧ keepsFlags s t [f] ∧ goesOn i s t ∧
      t = { s with p := t.p, pc := t.pc }

/-- O50. The flags n v m x d i z c are bits 7 to 0 of P (10_state.md R30). In a state that satisfies the mode
invariants: REP clears each flag whose bit is 1 in the operand and SEP sets it, the others are kept, but m and x are
1 in emulation mode; X and Y keep their low byte, and their high byte unless x is then 1; PC moves past the two
bytes; nothing else changes. (R254, R258.) -/
def Obligations.ResetAndSetStatusBits : Prop :=
  ∀ (imm : Byte) (s : State), s.modeOk →
    let layout := [(Flag.n, 7), (.v, 6), (.m, 5), (.x, 4), (.d, 3), (.i, 2), (.z, 1), (.c, 0)]
    (∃ t, exec (.rep imm) s = .next t ∧
      (∀ f b, (f, b) ∈ layout → s.flag f = s.p.getLsbD b ∧ t.flag f = t.p.getLsbD b ∧
        t.p.getLsbD b = ((s.p.getLsbD b && !imm.getLsbD b) || (s.e && (f == .m || f == .x)))) ∧
      t.x = trunc t.wX s.x ∧ t.y = trunc t.wX s.y ∧ goesOn (.rep imm) s t ∧
      t = { s with x := t.x, y := t.y, p := t.p, pc := t.pc }) ∧
    (∃ t, exec (.sep imm) s = .next t ∧
      (∀ f b, (f, b) ∈ layout → s.flag f = s.p.getLsbD b ∧ t.flag f = t.p.getLsbD b ∧
        t.p.getLsbD b = (s.p.getLsbD b || imm.getLsbD b)) ∧
      t.x = trunc t.wX s.x ∧ t.y = trunc t.wX s.y ∧ goesOn (.sep imm) s t ∧
      t = { s with x := t.x, y := t.y, p := t.p, pc := t.pc })

/-- O51. In a state that satisfies the mode invariants: XCE leaves the old E in c and the old c in E; if E is then 1,
m and x are 1, SH is 0x01 and XH and YH are zero, the low bytes kept; if E is then 0, m, x, S, X and Y are unchanged;
the other flags are kept, PC moves on by one, and nothing else changes. (R259.) -/
def Obligations.ExchangeCarryAndEmulation : Prop :=
  ∀ s : State, s.modeOk →
    ∃ t, exec .xce s = .next t ∧ t.e = s.flag .c ∧ t.flag .c = s.e ∧ keepsFlags s t [.m, .x, .c] ∧
      (t.e = true → t.flag .m = true ∧ t.flag .x = true ∧ t.s.toNat = 0x0100 + s.s.toNat % 256 ∧
        t.x.toNat = s.x.toNat % 256 ∧ t.y.toNat = s.y.toNat % 256) ∧
      (t.e = false → t.flag .m = s.flag .m ∧ t.flag .x = s.flag .x ∧ t.s = s.s ∧ t.x = s.x ∧ t.y = s.y) ∧
      goesOn .xce s t ∧ t = { s with e := t.e, p := t.p, s := t.s, x := t.x, y := t.y, pc := t.pc }

/-- O52. MVN and MVP copy the byte read at srcbank:X to dstbank:Y, keep every other byte, set DBR to the destination
bank, take one from all of C, and move X and Y up (MVN) or down (MVP) by one modulo 2^w at the width x selects; PC
stays if C was not zero and moves past the three bytes if it was; nothing else changes. (47_block_move.md R290, R291,
R292.) -/
def Obligations.BlockMoveStep : Prop :=
  ∀ (i : Instr) (up : Bool) (dst src : Byte) (s : State),
    (i, up) ∈ [(Instr.mvn dst src, true), (.mvp dst src, false)] →
    let size := 2 ^ s.wX.bits
    let moved := fun r : Nat => if up then (r + 1) % size else (r + size - 1) % size
    ∃ t, exec i s = .next t ∧ t.byteAt (bankAddr dst s.y) = s.readByte .data (bankAddr src s.x) ∧
      keepsBytes s t [bankAddr dst s.y] ∧ t.x.toNat = moved s.x.toNat ∧ t.y.toNat = moved s.y.toNat ∧
      t.c.toNat = (s.c.toNat + 65535) % 65536 ∧ t.pc = (if s.c = 0 then s.pc + 3 else s.pc) ∧
      t = { s with mem := t.mem, c := t.c, x := t.x, y := t.y, dbr := dst, pc := t.pc }

/-- O53. With 16-bit index registers and two different banks, MVN or MVP executed C + 1 times copies the C + 1 bytes
from srcbank:X on (upward for MVN, downward for MVP, wrapping inside the bank) to dstbank:Y on (those that do not
come from a device address), keeps every other byte of the destination bank and of every other bank, leaves C =
0xFFFF, X and Y moved by C + 1, DBR the destination bank and PC past the instruction; nothing else changes.
(47_block_move.md R290 to R292.) -/
def Obligations.BlockMoveCompletes : Prop :=
  ∀ (i : Instr) (up : Bool) (dst src : Byte) (s : State),
    (i, up) ∈ [(Instr.mvn dst src, true), (.mvp dst src, false)] → dst ≠ src → s.flag .x = false →
    let away := fun (r : Word) (k : Nat) => if up then r + BitVec.ofNat 16 k else r - BitVec.ofNat 16 k
    ∃ t, execTimes i (s.c.toNat + 1) s = .next t ∧
      (∀ k, k ≤ s.c.toNat → s.isDevice (bankAddr src (away s.x k)) = false →
        t.byteAt (bankAddr dst (away s.y k)) = s.byteAt (bankAddr src (away s.x k))) ∧
      (∀ bank a, (bank = dst → ∀ k, k ≤ s.c.toNat → a ≠ away s.y k) →
        t.byteAt (bankAddr bank a) = s.byteAt (bankAddr bank a)) ∧
      t.c = 0xFFFF ∧ t.x = away s.x (s.c.toNat + 1) ∧ t.y = away s.y (s.c.toNat + 1) ∧ t.pc = s.pc + 3 ∧
      t = { s with mem := t.mem, c := t.c, x := t.x, y := t.y, dbr := dst, pc := t.pc }

/-- O54. In a step with RESET asserted, stopped, waiting or not: E, m, x and i become 1 and d 0; D, DBR and PBR zero;
SH 0x01; XH and YH zero; Stopped, Waiting and NmiPending clear; PC the word at 0x00FFFC; memory and IO_REGION are
kept and the inputs of the step are consumed. What the spec leaves unspecified is not spoken of.
(70_reset_and_hazards.md R380, R381, 10_state.md R48, 60_exceptions.md R346.) -/
def Obligations.ResetEvent : Prop :=
  ∀ s : State, s.input.reset = true →
    ∃ t, step s = .next t ∧ t.e = true ∧ t.flag .m = true ∧ t.flag .x = true ∧ t.flag .d = false ∧
      t.flag .i = true ∧ t.d = 0 ∧ t.dbr = 0 ∧ t.pbr = 0 ∧ hiByte t.s = 0x01 ∧ hiByte t.x = 0 ∧
      hiByte t.y = 0 ∧ t.stopped = false ∧ t.waiting = false ∧ t.nmiPending = false ∧
      t.pc = s.nextInput.read16 .vector 0x00FFFC 0x00FFFD ∧ t.mem = s.mem ∧
      t.ioRegion = s.ioRegion ∧ t.inputs = s.inputs.tail

/-- O55. Without a reset: a stopped processor's step consumes the inputs of the step (nextInput) and changes nothing
else (an NMI edge is not latched); a waiting processor's likewise while there is no NMI and no IRQ; and a waiting
processor with a masked IRQ asserted and no NMI does in one step what it would do if it were not waiting.
(44_system.md R234, R235, 60_exceptions.md R349, R353.) -/
def Obligations.StoppedAndWaiting : Prop :=
  ∀ s : State, s.input.reset = false →
    (s.stopped = true → step s = .next s.nextInput) ∧
    (s.stopped = false → s.waiting = true → s.nmiPending = false → s.input.nmi = false →
      (s.input.irq = false → step s = .next s.nextInput) ∧
      (s.input.irq = true → s.flag .i = true → step s = step { s with waiting := false }))

/-- O56. abs is in bank DBR; abslong is itself; an index is added to the 24-bit address modulo 2^24, carrying into
the bank; ofs,S is S + ofs modulo 2^16 in bank 0. An 8-bit operand is the byte there; a 16-bit operand has its high
byte at the next address: modulo 2^24 for all but ofs,S, and inside bank 0 for ofs,S. An immediate operand is the imm
field itself, a byte at width 8 and a word at width 16. (40_addressing_modes.md R121 to R123, R127 to R129, R135,
40_addressing_modes.md R148, 20_memory.md R62, R63, 30_encoding.md R93, R94.) -/
def Obligations.NamedAddresses : Prop :=
  ∀ (abs : Word) (long : Addr) (ofs : Byte) (s : State),
    let m := fun n : Nat => (s.readByte .data (BitVec.ofNat 24 n)).toNat
    let bank := s.dbr.toNat * 65536
    let sp := s.s.toNat + ofs.toNat
    (∀ f a, (f, a) ∈ [(MemForm.abs abs, bank + abs.toNat), (.long long, long.toNat),
        (.absX abs, (bank + abs.toNat + s.x.toNat) % 2 ^ 24), (.absY abs, (bank + abs.toNat + s.y.toNat) % 2 ^ 24),
        (.longX long, (long.toNat + s.x.toNat) % 2 ^ 24)] →
      (s.loc f).addr.toNat = a ∧ (s.operand f .w8).toNat = m a ∧
        (s.operand f .w16).toNat = m a + 256 * m ((a + 1) % 2 ^ 24)) ∧
    (s.loc (.sr ofs)).addr.toNat = sp % 65536 ∧ (s.operand (.sr ofs) .w8).toNat = m (sp % 65536) ∧
    (s.operand (.sr ofs) .w16).toNat = m (sp % 65536) + 256 * m ((sp + 1) % 65536) ∧
    ∀ (imm : Byte) (wide : Word), ((Operand.imm (.byte imm)).value s .w8).toNat = imm.toNat ∧
      (Operand.imm (.word wide)).value s .w16 = wide

/-- O57. The direct-page address of an offset n is D + n modulo 2^16 in bank 0, but in emulation mode with the low
byte of D zero it is DH with n modulo 256. dp, dp,X and dp,Y name that address for dp, dp + X and dp + Y; the high
byte of a 16-bit operand is at the next offset of bank 0. (40_addressing_modes.md R124 to R126, R149, R150,
92_eei_decisions.md D6.) The case of emulation mode with a low byte of D that is not zero is the spec's fallback (D6;
log entry 7). -/
def Obligations.DirectPageAddresses : Prop :=
  ∀ (dp : Byte) (s : State),
    let m := fun n : Nat => (s.readByte .data (BitVec.ofNat 24 n)).toNat
    let direct := fun n : Nat =>
      if s.e = true ∧ s.d.toNat % 256 = 0 then s.d.toNat + n % 256 else (s.d.toNat + n) % 65536
    ∀ f n, (f, n) ∈ [(MemForm.dp dp, dp.toNat), (.dpX dp, dp.toNat + s.x.toNat), (.dpY dp, dp.toNat + s.y.toNat)] →
      (s.loc f).addr.toNat = direct n ∧ (s.operand f .w8).toNat = m (direct n) ∧
        (s.operand f .w16).toNat = m (direct n) + 256 * m ((direct n + 1) % 65536)

/-- O58. (dp), (dp,X) and (dp),Y read a 16-bit pointer at two direct-page addresses and name it in bank DBR; [dp] and
[dp],Y read a 24-bit pointer at D + dp on, with no page wrap; (ofs,S),Y reads a 16-bit pointer at S + ofs in bank 0
and names it in bank DBR. A final Y is added modulo 2^24. The high byte of a 16-bit operand is at the next 24-bit
address. (40_addressing_modes.md R130 to R134, R136, R149, R150.) The case of emulation mode with a low byte of D
that is not zero is the spec's fallback (D6; log entry 7). -/
def Obligations.IndirectAddresses : Prop :=
  ∀ (o : Byte) (s : State),
    let m := fun n : Nat => (s.readByte .data (BitVec.ofNat 24 n)).toNat
    let p := fun n : Nat => (s.readByte .pointer (BitVec.ofNat 24 n)).toNat
    let bank := s.dbr.toNat * 65536
    let direct := fun n : Nat =>
      if s.e = true ∧ s.d.toNat % 256 = 0 then s.d.toNat + n % 256 else (s.d.toNat + n) % 65536
    let word := fun n : Nat => p (direct n) + 256 * p (direct (n + 1))
    let d := s.d.toNat + o.toNat
    let long := p (d % 65536) + 256 * p ((d + 1) % 65536) + 65536 * p ((d + 2) % 65536)
    let sp := s.s.toNat + o.toNat
    ∀ f a, (f, a) ∈ [(MemForm.dpInd o, bank + word o.toNat), (.dpXInd o, bank + word (o.toNat + s.x.toNat)),
        (.dpIndY o, (bank + word o.toNat + s.y.toNat) % 2 ^ 24), (.dpIndL o, long),
        (.dpIndLY o, (long + s.y.toNat) % 2 ^ 24),
        (.srIndY o, (bank + (p (sp % 65536) + 256 * p ((sp + 1) % 65536)) + s.y.toNat) % 2 ^ 24)] →
      (s.loc f).addr.toNat = a ∧ (s.operand f .w8).toNat = m a ∧
        (s.operand f .w16).toNat = m a + 256 * m ((a + 1) % 2 ^ 24)

/-- O59. After k pushes S is k lower and after k pulls k higher, modulo 2^16 in native mode, and in emulation mode
modulo 256 with the high byte kept. A pull after a push, of a byte or of a word, by the old or by the new primitives,
at addresses that are no device addresses, gives the value pushed and the S of before. (20_memory.md R68 to R71.) -/
def Obligations.StackPrimitives : Prop :=
  (∀ (sp : Word) (k : Nat),
    ((stackBelow false sp k).toNat : Int) = ((sp.toNat : Int) - k) % 65536 ∧
    ((stackAbove false sp k).toNat : Int) = ((sp.toNat : Int) + k) % 65536 ∧
    ((stackBelow true sp k).toNat : Int) = (sp.toNat : Int) / 256 * 256 + ((sp.toNat : Int) - k) % 256 ∧
    ((stackAbove true sp k).toNat : Int) = (sp.toNat : Int) / 256 * 256 + ((sp.toNat : Int) + k) % 256) ∧
  ∀ (b : Byte) (v : Word) (s : State),
    (s.isDevice (s.pushAddr 0) = false → (s.push8 b).pull8 = (b, { s with mem := (s.push8 b).mem }) ∧
      (s.pushN8 b).pullN8 = (b, { s with mem := (s.pushN8 b).mem })) ∧
    (s.isDevice (s.pushAddr 0) = false → s.isDevice (s.pushAddr 1) = false →
      (s.push16 v).pull16 = (v, { s with mem := (s.push16 v).mem })) ∧
    (s.isDevice (s.pushAddr 0) = false → s.isDevice (bankAddr 0 (s.s - 1)) = false →
      (s.pushN16 v).pullN16 = (v, { s with mem := (s.pushN16 v).mem }))

/-- O60. Two memories in canonical form that hold the same at every address are the same data. A location that holds
a value reads as it, one that holds none as the draw of its address; after a write a location holds the value
written, and every other what it held. In a memory in canonical form, at addresses below 2^24: writing to an address
what it holds changes nothing; of two writes to one address only the second counts; and two writes to different
addresses give the same memory in either order. Taking in the inputs of a step makes the platform's answers of the
step ready, moves the schedule on, takes a draw number if there is a device address, and changes nothing else. A read
outside IO_REGION yields what memory holds, and after a store there the byte stored. A read in IO_REGION yields what
the platform answers to the read of this purpose at this address, a draw if no answer is named; a store does not
change it. (20_memory.md R61, R73, 20_memory.md R81, 10_state.md R46, 92_eei_decisions.md D8, D9.) That a read of an
undefined location draws, once for each address, is the model's choice of the two that R81 gives (log entry 2); how
the platform's answers are told apart and come to the step is the model's form of R61's oracle (log entry 9). -/
def Obligations.MemoryIsItsContents : Prop :=
  (∀ m₁ m₂ : Memory, m₁.wf = true → m₂.wf = true → (∀ a, m₁.lookup a = m₂.lookup a) → m₁ = m₂) ∧
    (∀ (m : Memory) (a b : Nat) (v w : Byte),
      (m.lookup a = some v → m.read a = v) ∧ (m.lookup a = none → m.read a = Config.undefinedByte a) ∧
      (m.write a v).lookup b = (if b = a then some v else m.lookup b) ∧
      (m.wf = true → a < 2 ^ 24 → b < 2 ^ 24 → (m.lookup a = some v → m.write a v = m) ∧
        (m.write a v).write a w = m.write a w ∧ (a ≠ b → (m.write a v).write b w = (m.write b w).write a v))) ∧
    ∀ s : State, s.nextInput = { s with
        io := s.input.io, inputs := s.inputs.tail, draws := if s.ioRegion = [] then s.draws else s.draws + 1 } ∧
      ∀ (p : ReadPurpose) (a : Addr),
        let device := ∃ first last, (first, last) ∈ s.ioRegion ∧ first ≤ a.toNat ∧ a.toNat ≤ last
        (¬device → s.readByte p a = s.mem.read a.toNat) ∧
        (device → (∀ before v after, s.io = before ++ ⟨p, a, v⟩ :: after → (∀ w, ⟨p, a, w⟩ ∉ before) →
          s.readByte p a = v) ∧ ((∀ v, ⟨p, a, v⟩ ∉ s.io) → s.readByte p a = Config.deviceByte s.draws p a)) ∧
        ∀ b v, (¬device ∧ a = b → (s.writeByte b v).readByte p a = v) ∧
          (device ∨ a ≠ b → (s.writeByte b v).readByte p a = s.readByte p a)
end

