-- ==== Sys2Proof/Laws/Words.lean ====
section
/-! SUPPORT. The byte-order helpers and the bank addresses as numbers. -/

namespace Sys2Proof.Machine

theorem word16_toNat (l h : Byte) : (word16 l h).toNat = l.toNat + 256 * h.toNat := by
  have := l.isLt
  simp only [word16]
  rw [BitVec.toNat_append, ← Nat.shiftLeft_add_eq_or_of_lt this, Nat.shiftLeft_eq]
  omega

theorem loByte_toNat (v : Word) : (loByte v).toNat = v.toNat % 256 := by simp [loByte]

theorem hiByte_toNat (v : Word) : (hiByte v).toNat = v.toNat / 256 := by
  have := v.isLt
  simp only [hiByte, BitVec.toNat_setWidth, BitVec.toNat_ushiftRight, Nat.shiftRight_eq_div_pow]
  omega

@[simp] theorem loByte_word16 (l h : Byte) : loByte (word16 l h) = l := by
  have := l.isLt
  apply BitVec.eq_of_toNat_eq; rw [loByte_toNat, word16_toNat]; omega

@[simp] theorem hiByte_word16 (l h : Byte) : hiByte (word16 l h) = h := by
  have := l.isLt; have := h.isLt
  apply BitVec.eq_of_toNat_eq; rw [hiByte_toNat, word16_toNat]; omega

@[simp] theorem word16_lo_hi (v : Word) : word16 (loByte v) (hiByte v) = v := by
  apply BitVec.eq_of_toNat_eq; rw [word16_toNat, loByte_toNat, hiByte_toNat]; omega

theorem word16_inj {l h l' h' : Byte} : word16 l h = word16 l' h' ↔ l = l' ∧ h = h' := by
  constructor
  · intro e
    exact ⟨by simpa using congrArg loByte e, by simpa using congrArg hiByte e⟩
  · rintro ⟨rfl, rfl⟩; rfl

theorem addr24_toNat (l h b : Byte) : (addr24 l h b).toNat = l.toNat + 256 * h.toNat + 65536 * b.toNat := by
  have h1 := l.isLt; have h2 := h.isLt
  have h3 : (h ++ l : BitVec 16).toNat < 2 ^ 16 := (h ++ l : BitVec 16).isLt
  have h4 : (h ++ l : BitVec 16).toNat = l.toNat + 256 * h.toNat := word16_toNat l h
  simp only [addr24]
  rw [BitVec.toNat_append, ← Nat.shiftLeft_add_eq_or_of_lt h3, Nat.shiftLeft_eq, h4]
  omega

theorem bankAddr_toNat (b : Byte) (o : Word) : (bankAddr b o).toNat = b.toNat * 65536 + o.toNat := by
  have h1 := o.isLt
  simp only [bankAddr]
  rw [BitVec.toNat_append, ← Nat.shiftLeft_add_eq_or_of_lt h1, Nat.shiftLeft_eq]

theorem bankAddr_inj {b b' : Byte} {o o' : Word} : bankAddr b o = bankAddr b' o' ↔ b = b' ∧ o = o' := by
  constructor
  · intro e
    have h := congrArg BitVec.toNat e
    rw [bankAddr_toNat, bankAddr_toNat] at h
    have := o.isLt; have := o'.isLt
    exact ⟨BitVec.eq_of_toNat_eq (by omega), BitVec.eq_of_toNat_eq (by omega)⟩
  · rintro ⟨rfl, rfl⟩; rfl

/-- The two bytes of a 16-bit operand lie at different addresses. -/
theorem Loc.next_ne (l : Loc) : l.next ≠ l.addr := by
  obtain ⟨a, k⟩ := l
  intro e
  have h := congrArg BitVec.toNat e
  have := a.isLt
  cases k
  · simp only [Loc.next, BitVec.toNat_add, show (1 : Addr).toNat = 1 from rfl] at h
    omega
  · simp only [Loc.next, bankAddr_toNat, BitVec.toNat_add, BitVec.toNat_setWidth, show (1 : Word).toNat = 1 from rfl,
      show (0 : Byte).toNat = 0 from rfl] at h
    omega

end Sys2Proof.Machine
end

