-- ==== Sys2Proof/Laws/Decode.lean ====
section
/-! SUPPORT. The bytes of an operand and the operand read back from them, once for each operand format. -/

namespace Sys2Proof

/-- The bytes of a word read back are the word. -/
theorem word16_of_wordBytes (v : Word) : word16 (loByte v) (hiByte v) = v := Machine.word16_lo_hi v

theorem wordBytes_word16 (l h : Byte) : wordBytes (word16 l h) = [l, h] := by simp [wordBytes]

theorem addrBytes_addr24 (l h b : Byte) : addrBytes (addr24 l h b) = [l, h, b] := by
  have := l.isLt; have := h.isLt; have := b.isLt
  have e1 : (addr24 l h b).setWidth 8 = l := by
    apply BitVec.eq_of_toNat_eq
    simp only [BitVec.toNat_setWidth, Machine.addr24_toNat]; omega
  have e2 : (addr24 l h b >>> 8).setWidth 8 = h := by
    apply BitVec.eq_of_toNat_eq
    simp only [BitVec.toNat_setWidth, BitVec.toNat_ushiftRight, Nat.shiftRight_eq_div_pow, Machine.addr24_toNat]; omega
  have e3 : (addr24 l h b >>> 16).setWidth 8 = b := by
    apply BitVec.eq_of_toNat_eq
    simp only [BitVec.toNat_setWidth, BitVec.toNat_ushiftRight, Nat.shiftRight_eq_div_pow, Machine.addr24_toNat]; omega
  simp only [addrBytes, e1, e2, e3]

theorem addr24_of_addrBytes (v : Addr) :
    addr24 (v.setWidth 8) ((v >>> 8).setWidth 8) ((v >>> 16).setWidth 8) = v := by
  apply BitVec.eq_of_toNat_eq
  have := v.isLt
  simp only [Machine.addr24_toNat, BitVec.toNat_setWidth, BitVec.toNat_ushiftRight, Nat.shiftRight_eq_div_pow]
  omega

theorem operand16_wordBytes (op : Byte) (f : Word → Instr) (v : Word) (rest : List Byte) :
    operand16 op f (wordBytes v ++ rest) = .ok (f v, rest) := by simp [wordBytes, operand16]

theorem operand24_addrBytes (op : Byte) (f : Addr → Instr) (v : Addr) (rest : List Byte) :
    operand24 op f (addrBytes v ++ rest) = .ok (f v, rest) := by
  simp only [addrBytes, operand24, List.cons_append, List.nil_append, addr24_of_addrBytes]

theorem immOperand_immBytes (op : Byte) (flag : Bool) (f : Imm → Instr) (i : Imm) (rest : List Byte)
    (h : i.fits flag = true) : immOperand op flag f (immBytes i ++ rest) = .ok (f i, rest) := by
  cases i <;> cases flag <;> simp_all [Imm.fits, immOperand, immBytes, operand8, operand16, wordBytes]

end Sys2Proof
end

