-- ==== Sys2Proof/Laws/State.lean ====
section
/-! SUPPORT. One lemma for each field of the state and each named update of it, true by `rfl` (or by cases on the
width): what the update leaves in the field. For each update that keeps `P`, the flags and widths it keeps; for each
that keeps memory, the bytes it keeps and, where it takes no draw, what reads yield. No later proof unfolds a record
update. -/

namespace Sys2Proof.Machine

/-! ### `State.setFlag` -/

@[simp] theorem State.setFlag_c (f : Flag) (b : Bool) (s : State) : (s.setFlag f b).c = s.c := rfl
@[simp] theorem State.setFlag_x (f : Flag) (b : Bool) (s : State) : (s.setFlag f b).x = s.x := rfl
@[simp] theorem State.setFlag_y (f : Flag) (b : Bool) (s : State) : (s.setFlag f b).y = s.y := rfl
@[simp] theorem State.setFlag_s (f : Flag) (b : Bool) (s : State) : (s.setFlag f b).s = s.s := rfl
@[simp] theorem State.setFlag_d (f : Flag) (b : Bool) (s : State) : (s.setFlag f b).d = s.d := rfl
@[simp] theorem State.setFlag_dbr (f : Flag) (b : Bool) (s : State) : (s.setFlag f b).dbr = s.dbr := rfl
@[simp] theorem State.setFlag_pbr (f : Flag) (b : Bool) (s : State) : (s.setFlag f b).pbr = s.pbr := rfl
@[simp] theorem State.setFlag_pc (f : Flag) (b : Bool) (s : State) : (s.setFlag f b).pc = s.pc := rfl
@[simp] theorem State.setFlag_p (f : Flag) (b : Bool) (s : State) : (s.setFlag f b).p = setBit s.p (flagBit f) b := rfl
@[simp] theorem State.setFlag_e (f : Flag) (b : Bool) (s : State) : (s.setFlag f b).e = s.e := rfl
@[simp] theorem State.setFlag_stopped (f : Flag) (b : Bool) (s : State) : (s.setFlag f b).stopped = s.stopped := rfl
@[simp] theorem State.setFlag_waiting (f : Flag) (b : Bool) (s : State) : (s.setFlag f b).waiting = s.waiting := rfl
@[simp] theorem State.setFlag_nmiPending (f : Flag) (b : Bool) (s : State) : (s.setFlag f b).nmiPending = s.nmiPending := rfl
@[simp] theorem State.setFlag_mem (f : Flag) (b : Bool) (s : State) : (s.setFlag f b).mem = s.mem := rfl
@[simp] theorem State.setFlag_ioRegion (f : Flag) (b : Bool) (s : State) : (s.setFlag f b).ioRegion = s.ioRegion := rfl
@[simp] theorem State.setFlag_io (f : Flag) (b : Bool) (s : State) : (s.setFlag f b).io = s.io := rfl
@[simp] theorem State.setFlag_inputs (f : Flag) (b : Bool) (s : State) : (s.setFlag f b).inputs = s.inputs := rfl
@[simp] theorem State.setFlag_draws (f : Flag) (b : Bool) (s : State) : (s.setFlag f b).draws = s.draws := rfl
@[simp] theorem State.setFlag_areg (f : Flag) (b : Bool) (u : Width) (s : State) : (s.setFlag f b).areg u = s.areg u := rfl
@[simp] theorem State.setFlag_isDevice (f : Flag) (b : Bool) (addr : Addr) (s : State) : (s.setFlag f b).isDevice addr = s.isDevice addr := rfl
@[simp] theorem State.setFlag_byteAt (f : Flag) (b : Bool) (addr : Addr) (s : State) : (s.setFlag f b).byteAt addr = s.byteAt addr := rfl
@[simp] theorem State.setFlag_readByte (f : Flag) (b : Bool) (q : ReadPurpose) (addr : Addr) (s : State) : (s.setFlag f b).readByte q addr = s.readByte q addr := rfl

/-! ### `State.setNZ` -/

@[simp] theorem State.setNZ_c (w : Width) (v : Word) (s : State) : (s.setNZ w v).c = s.c := rfl
@[simp] theorem State.setNZ_x (w : Width) (v : Word) (s : State) : (s.setNZ w v).x = s.x := rfl
@[simp] theorem State.setNZ_y (w : Width) (v : Word) (s : State) : (s.setNZ w v).y = s.y := rfl
@[simp] theorem State.setNZ_s (w : Width) (v : Word) (s : State) : (s.setNZ w v).s = s.s := rfl
@[simp] theorem State.setNZ_d (w : Width) (v : Word) (s : State) : (s.setNZ w v).d = s.d := rfl
@[simp] theorem State.setNZ_dbr (w : Width) (v : Word) (s : State) : (s.setNZ w v).dbr = s.dbr := rfl
@[simp] theorem State.setNZ_pbr (w : Width) (v : Word) (s : State) : (s.setNZ w v).pbr = s.pbr := rfl
@[simp] theorem State.setNZ_pc (w : Width) (v : Word) (s : State) : (s.setNZ w v).pc = s.pc := rfl
@[simp] theorem State.setNZ_p (w : Width) (v : Word) (s : State) : (s.setNZ w v).p = setBit (setBit s.p 7 (msb w v)) 1 (trunc w v == 0) := rfl
@[simp] theorem State.setNZ_e (w : Width) (v : Word) (s : State) : (s.setNZ w v).e = s.e := rfl
@[simp] theorem State.setNZ_stopped (w : Width) (v : Word) (s : State) : (s.setNZ w v).stopped = s.stopped := rfl
@[simp] theorem State.setNZ_waiting (w : Width) (v : Word) (s : State) : (s.setNZ w v).waiting = s.waiting := rfl
@[simp] theorem State.setNZ_nmiPending (w : Width) (v : Word) (s : State) : (s.setNZ w v).nmiPending = s.nmiPending := rfl
@[simp] theorem State.setNZ_mem (w : Width) (v : Word) (s : State) : (s.setNZ w v).mem = s.mem := rfl
@[simp] theorem State.setNZ_ioRegion (w : Width) (v : Word) (s : State) : (s.setNZ w v).ioRegion = s.ioRegion := rfl
@[simp] theorem State.setNZ_io (w : Width) (v : Word) (s : State) : (s.setNZ w v).io = s.io := rfl
@[simp] theorem State.setNZ_inputs (w : Width) (v : Word) (s : State) : (s.setNZ w v).inputs = s.inputs := rfl
@[simp] theorem State.setNZ_draws (w : Width) (v : Word) (s : State) : (s.setNZ w v).draws = s.draws := rfl
@[simp] theorem State.setNZ_areg (w : Width) (v : Word) (u : Width) (s : State) : (s.setNZ w v).areg u = s.areg u := rfl
@[simp] theorem State.setNZ_isDevice (w : Width) (v : Word) (addr : Addr) (s : State) : (s.setNZ w v).isDevice addr = s.isDevice addr := rfl
@[simp] theorem State.setNZ_byteAt (w : Width) (v : Word) (addr : Addr) (s : State) : (s.setNZ w v).byteAt addr = s.byteAt addr := rfl
@[simp] theorem State.setNZ_readByte (w : Width) (v : Word) (q : ReadPurpose) (addr : Addr) (s : State) : (s.setNZ w v).readByte q addr = s.readByte q addr := rfl

/-! ### `State.compare` -/

@[simp] theorem State.compare_c (w : Width) (reg m : Word) (s : State) : (s.compare w reg m).c = s.c := rfl
@[simp] theorem State.compare_x (w : Width) (reg m : Word) (s : State) : (s.compare w reg m).x = s.x := rfl
@[simp] theorem State.compare_y (w : Width) (reg m : Word) (s : State) : (s.compare w reg m).y = s.y := rfl
@[simp] theorem State.compare_s (w : Width) (reg m : Word) (s : State) : (s.compare w reg m).s = s.s := rfl
@[simp] theorem State.compare_d (w : Width) (reg m : Word) (s : State) : (s.compare w reg m).d = s.d := rfl
@[simp] theorem State.compare_dbr (w : Width) (reg m : Word) (s : State) : (s.compare w reg m).dbr = s.dbr := rfl
@[simp] theorem State.compare_pbr (w : Width) (reg m : Word) (s : State) : (s.compare w reg m).pbr = s.pbr := rfl
@[simp] theorem State.compare_pc (w : Width) (reg m : Word) (s : State) : (s.compare w reg m).pc = s.pc := rfl
@[simp] theorem State.compare_e (w : Width) (reg m : Word) (s : State) : (s.compare w reg m).e = s.e := rfl
@[simp] theorem State.compare_stopped (w : Width) (reg m : Word) (s : State) : (s.compare w reg m).stopped = s.stopped := rfl
@[simp] theorem State.compare_waiting (w : Width) (reg m : Word) (s : State) : (s.compare w reg m).waiting = s.waiting := rfl
@[simp] theorem State.compare_nmiPending (w : Width) (reg m : Word) (s : State) : (s.compare w reg m).nmiPending = s.nmiPending := rfl
@[simp] theorem State.compare_mem (w : Width) (reg m : Word) (s : State) : (s.compare w reg m).mem = s.mem := rfl
@[simp] theorem State.compare_ioRegion (w : Width) (reg m : Word) (s : State) : (s.compare w reg m).ioRegion = s.ioRegion := rfl
@[simp] theorem State.compare_io (w : Width) (reg m : Word) (s : State) : (s.compare w reg m).io = s.io := rfl
@[simp] theorem State.compare_inputs (w : Width) (reg m : Word) (s : State) : (s.compare w reg m).inputs = s.inputs := rfl
@[simp] theorem State.compare_draws (w : Width) (reg m : Word) (s : State) : (s.compare w reg m).draws = s.draws := rfl
@[simp] theorem State.compare_areg (w : Width) (reg m : Word) (u : Width) (s : State) : (s.compare w reg m).areg u = s.areg u := rfl
@[simp] theorem State.compare_isDevice (w : Width) (reg m : Word) (addr : Addr) (s : State) : (s.compare w reg m).isDevice addr = s.isDevice addr := rfl
@[simp] theorem State.compare_byteAt (w : Width) (reg m : Word) (addr : Addr) (s : State) : (s.compare w reg m).byteAt addr = s.byteAt addr := rfl
@[simp] theorem State.compare_readByte (w : Width) (reg m : Word) (q : ReadPurpose) (addr : Addr) (s : State) : (s.compare w reg m).readByte q addr = s.readByte q addr := rfl

/-! ### `State.writeByte` -/

@[simp] theorem State.writeByte_c (a : Addr) (v : Byte) (s : State) : (s.writeByte a v).c = s.c := rfl
@[simp] theorem State.writeByte_x (a : Addr) (v : Byte) (s : State) : (s.writeByte a v).x = s.x := rfl
@[simp] theorem State.writeByte_y (a : Addr) (v : Byte) (s : State) : (s.writeByte a v).y = s.y := rfl
@[simp] theorem State.writeByte_s (a : Addr) (v : Byte) (s : State) : (s.writeByte a v).s = s.s := rfl
@[simp] theorem State.writeByte_d (a : Addr) (v : Byte) (s : State) : (s.writeByte a v).d = s.d := rfl
@[simp] theorem State.writeByte_dbr (a : Addr) (v : Byte) (s : State) : (s.writeByte a v).dbr = s.dbr := rfl
@[simp] theorem State.writeByte_pbr (a : Addr) (v : Byte) (s : State) : (s.writeByte a v).pbr = s.pbr := rfl
@[simp] theorem State.writeByte_pc (a : Addr) (v : Byte) (s : State) : (s.writeByte a v).pc = s.pc := rfl
@[simp] theorem State.writeByte_p (a : Addr) (v : Byte) (s : State) : (s.writeByte a v).p = s.p := rfl
@[simp] theorem State.writeByte_e (a : Addr) (v : Byte) (s : State) : (s.writeByte a v).e = s.e := rfl
@[simp] theorem State.writeByte_stopped (a : Addr) (v : Byte) (s : State) : (s.writeByte a v).stopped = s.stopped := rfl
@[simp] theorem State.writeByte_waiting (a : Addr) (v : Byte) (s : State) : (s.writeByte a v).waiting = s.waiting := rfl
@[simp] theorem State.writeByte_nmiPending (a : Addr) (v : Byte) (s : State) : (s.writeByte a v).nmiPending = s.nmiPending := rfl
@[simp] theorem State.writeByte_mem (a : Addr) (v : Byte) (s : State) : (s.writeByte a v).mem = s.mem.write a.toNat v := rfl
@[simp] theorem State.writeByte_ioRegion (a : Addr) (v : Byte) (s : State) : (s.writeByte a v).ioRegion = s.ioRegion := rfl
@[simp] theorem State.writeByte_io (a : Addr) (v : Byte) (s : State) : (s.writeByte a v).io = s.io := rfl
@[simp] theorem State.writeByte_inputs (a : Addr) (v : Byte) (s : State) : (s.writeByte a v).inputs = s.inputs := rfl
@[simp] theorem State.writeByte_draws (a : Addr) (v : Byte) (s : State) : (s.writeByte a v).draws = s.draws := rfl
@[simp] theorem State.writeByte_flag (a : Addr) (v : Byte) (g : Flag) (s : State) : (s.writeByte a v).flag g = s.flag g := rfl
@[simp] theorem State.writeByte_wA (a : Addr) (v : Byte) (s : State) : (s.writeByte a v).wA = s.wA := rfl
@[simp] theorem State.writeByte_wX (a : Addr) (v : Byte) (s : State) : (s.writeByte a v).wX = s.wX := rfl
@[simp] theorem State.writeByte_areg (a : Addr) (v : Byte) (u : Width) (s : State) : (s.writeByte a v).areg u = s.areg u := rfl
@[simp] theorem State.writeByte_isDevice (a : Addr) (v : Byte) (addr : Addr) (s : State) : (s.writeByte a v).isDevice addr = s.isDevice addr := rfl

/-! ### `State.writeLoc` -/

@[simp] theorem State.writeLoc_c (l : Loc) (w : Width) (v : Word) (s : State) : (s.writeLoc l w v).c = s.c := by cases w <;> rfl
@[simp] theorem State.writeLoc_x (l : Loc) (w : Width) (v : Word) (s : State) : (s.writeLoc l w v).x = s.x := by cases w <;> rfl
@[simp] theorem State.writeLoc_y (l : Loc) (w : Width) (v : Word) (s : State) : (s.writeLoc l w v).y = s.y := by cases w <;> rfl
@[simp] theorem State.writeLoc_s (l : Loc) (w : Width) (v : Word) (s : State) : (s.writeLoc l w v).s = s.s := by cases w <;> rfl
@[simp] theorem State.writeLoc_d (l : Loc) (w : Width) (v : Word) (s : State) : (s.writeLoc l w v).d = s.d := by cases w <;> rfl
@[simp] theorem State.writeLoc_dbr (l : Loc) (w : Width) (v : Word) (s : State) : (s.writeLoc l w v).dbr = s.dbr := by cases w <;> rfl
@[simp] theorem State.writeLoc_pbr (l : Loc) (w : Width) (v : Word) (s : State) : (s.writeLoc l w v).pbr = s.pbr := by cases w <;> rfl
@[simp] theorem State.writeLoc_pc (l : Loc) (w : Width) (v : Word) (s : State) : (s.writeLoc l w v).pc = s.pc := by cases w <;> rfl
@[simp] theorem State.writeLoc_p (l : Loc) (w : Width) (v : Word) (s : State) : (s.writeLoc l w v).p = s.p := by cases w <;> rfl
@[simp] theorem State.writeLoc_e (l : Loc) (w : Width) (v : Word) (s : State) : (s.writeLoc l w v).e = s.e := by cases w <;> rfl
@[simp] theorem State.writeLoc_stopped (l : Loc) (w : Width) (v : Word) (s : State) : (s.writeLoc l w v).stopped = s.stopped := by cases w <;> rfl
@[simp] theorem State.writeLoc_waiting (l : Loc) (w : Width) (v : Word) (s : State) : (s.writeLoc l w v).waiting = s.waiting := by cases w <;> rfl
@[simp] theorem State.writeLoc_nmiPending (l : Loc) (w : Width) (v : Word) (s : State) : (s.writeLoc l w v).nmiPending = s.nmiPending := by cases w <;> rfl
@[simp] theorem State.writeLoc_ioRegion (l : Loc) (w : Width) (v : Word) (s : State) : (s.writeLoc l w v).ioRegion = s.ioRegion := by cases w <;> rfl
@[simp] theorem State.writeLoc_io (l : Loc) (w : Width) (v : Word) (s : State) : (s.writeLoc l w v).io = s.io := by cases w <;> rfl
@[simp] theorem State.writeLoc_inputs (l : Loc) (w : Width) (v : Word) (s : State) : (s.writeLoc l w v).inputs = s.inputs := by cases w <;> rfl
@[simp] theorem State.writeLoc_draws (l : Loc) (w : Width) (v : Word) (s : State) : (s.writeLoc l w v).draws = s.draws := by cases w <;> rfl
@[simp] theorem State.writeLoc_flag (l : Loc) (w : Width) (v : Word) (g : Flag) (s : State) : (s.writeLoc l w v).flag g = s.flag g := by simp [State.flag]
@[simp] theorem State.writeLoc_wA (l : Loc) (w : Width) (v : Word) (s : State) : (s.writeLoc l w v).wA = s.wA := by simp [State.wA]
@[simp] theorem State.writeLoc_wX (l : Loc) (w : Width) (v : Word) (s : State) : (s.writeLoc l w v).wX = s.wX := by simp [State.wX]
@[simp] theorem State.writeLoc_areg (l : Loc) (w : Width) (v : Word) (u : Width) (s : State) : (s.writeLoc l w v).areg u = s.areg u := by simp [State.areg]
@[simp] theorem State.writeLoc_isDevice (l : Loc) (w : Width) (v : Word) (addr : Addr) (s : State) : (s.writeLoc l w v).isDevice addr = s.isDevice addr := by simp [State.isDevice]

/-! ### `State.writeBack` -/

@[simp] theorem State.writeBack_c (l : Loc) (w : Width) (v : Word) (s : State) : (s.writeBack l w v).c = s.c := by cases w <;> rfl
@[simp] theorem State.writeBack_x (l : Loc) (w : Width) (v : Word) (s : State) : (s.writeBack l w v).x = s.x := by cases w <;> rfl
@[simp] theorem State.writeBack_y (l : Loc) (w : Width) (v : Word) (s : State) : (s.writeBack l w v).y = s.y := by cases w <;> rfl
@[simp] theorem State.writeBack_s (l : Loc) (w : Width) (v : Word) (s : State) : (s.writeBack l w v).s = s.s := by cases w <;> rfl
@[simp] theorem State.writeBack_d (l : Loc) (w : Width) (v : Word) (s : State) : (s.writeBack l w v).d = s.d := by cases w <;> rfl
@[simp] theorem State.writeBack_dbr (l : Loc) (w : Width) (v : Word) (s : State) : (s.writeBack l w v).dbr = s.dbr := by cases w <;> rfl
@[simp] theorem State.writeBack_pbr (l : Loc) (w : Width) (v : Word) (s : State) : (s.writeBack l w v).pbr = s.pbr := by cases w <;> rfl
@[simp] theorem State.writeBack_pc (l : Loc) (w : Width) (v : Word) (s : State) : (s.writeBack l w v).pc = s.pc := by cases w <;> rfl
@[simp] theorem State.writeBack_p (l : Loc) (w : Width) (v : Word) (s : State) : (s.writeBack l w v).p = s.p := by cases w <;> rfl
@[simp] theorem State.writeBack_e (l : Loc) (w : Width) (v : Word) (s : State) : (s.writeBack l w v).e = s.e := by cases w <;> rfl
@[simp] theorem State.writeBack_stopped (l : Loc) (w : Width) (v : Word) (s : State) : (s.writeBack l w v).stopped = s.stopped := by cases w <;> rfl
@[simp] theorem State.writeBack_waiting (l : Loc) (w : Width) (v : Word) (s : State) : (s.writeBack l w v).waiting = s.waiting := by cases w <;> rfl
@[simp] theorem State.writeBack_nmiPending (l : Loc) (w : Width) (v : Word) (s : State) : (s.writeBack l w v).nmiPending = s.nmiPending := by cases w <;> rfl
@[simp] theorem State.writeBack_ioRegion (l : Loc) (w : Width) (v : Word) (s : State) : (s.writeBack l w v).ioRegion = s.ioRegion := by cases w <;> rfl
@[simp] theorem State.writeBack_io (l : Loc) (w : Width) (v : Word) (s : State) : (s.writeBack l w v).io = s.io := by cases w <;> rfl
@[simp] theorem State.writeBack_inputs (l : Loc) (w : Width) (v : Word) (s : State) : (s.writeBack l w v).inputs = s.inputs := by cases w <;> rfl
@[simp] theorem State.writeBack_draws (l : Loc) (w : Width) (v : Word) (s : State) : (s.writeBack l w v).draws = s.draws := by cases w <;> rfl
@[simp] theorem State.writeBack_flag (l : Loc) (w : Width) (v : Word) (g : Flag) (s : State) : (s.writeBack l w v).flag g = s.flag g := by simp [State.flag]
@[simp] theorem State.writeBack_wA (l : Loc) (w : Width) (v : Word) (s : State) : (s.writeBack l w v).wA = s.wA := by simp [State.wA]
@[simp] theorem State.writeBack_wX (l : Loc) (w : Width) (v : Word) (s : State) : (s.writeBack l w v).wX = s.wX := by simp [State.wX]
@[simp] theorem State.writeBack_areg (l : Loc) (w : Width) (v : Word) (u : Width) (s : State) : (s.writeBack l w v).areg u = s.areg u := by simp [State.areg]
@[simp] theorem State.writeBack_isDevice (l : Loc) (w : Width) (v : Word) (addr : Addr) (s : State) : (s.writeBack l w v).isDevice addr = s.isDevice addr := by simp [State.isDevice]

/-! ### `State.advance` -/

@[simp] theorem State.advance_c (n : Nat) (s : State) : (s.advance n).c = s.c := rfl
@[simp] theorem State.advance_x (n : Nat) (s : State) : (s.advance n).x = s.x := rfl
@[simp] theorem State.advance_y (n : Nat) (s : State) : (s.advance n).y = s.y := rfl
@[simp] theorem State.advance_s (n : Nat) (s : State) : (s.advance n).s = s.s := rfl
@[simp] theorem State.advance_d (n : Nat) (s : State) : (s.advance n).d = s.d := rfl
@[simp] theorem State.advance_dbr (n : Nat) (s : State) : (s.advance n).dbr = s.dbr := rfl
@[simp] theorem State.advance_pbr (n : Nat) (s : State) : (s.advance n).pbr = s.pbr := rfl
@[simp] theorem State.advance_pc (n : Nat) (s : State) : (s.advance n).pc = s.pc + BitVec.ofNat 16 n := rfl
@[simp] theorem State.advance_p (n : Nat) (s : State) : (s.advance n).p = s.p := rfl
@[simp] theorem State.advance_e (n : Nat) (s : State) : (s.advance n).e = s.e := rfl
@[simp] theorem State.advance_stopped (n : Nat) (s : State) : (s.advance n).stopped = s.stopped := rfl
@[simp] theorem State.advance_waiting (n : Nat) (s : State) : (s.advance n).waiting = s.waiting := rfl
@[simp] theorem State.advance_nmiPending (n : Nat) (s : State) : (s.advance n).nmiPending = s.nmiPending := rfl
@[simp] theorem State.advance_mem (n : Nat) (s : State) : (s.advance n).mem = s.mem := rfl
@[simp] theorem State.advance_ioRegion (n : Nat) (s : State) : (s.advance n).ioRegion = s.ioRegion := rfl
@[simp] theorem State.advance_io (n : Nat) (s : State) : (s.advance n).io = s.io := rfl
@[simp] theorem State.advance_inputs (n : Nat) (s : State) : (s.advance n).inputs = s.inputs := rfl
@[simp] theorem State.advance_draws (n : Nat) (s : State) : (s.advance n).draws = s.draws := rfl
@[simp] theorem State.advance_flag (n : Nat) (g : Flag) (s : State) : (s.advance n).flag g = s.flag g := rfl
@[simp] theorem State.advance_wA (n : Nat) (s : State) : (s.advance n).wA = s.wA := rfl
@[simp] theorem State.advance_wX (n : Nat) (s : State) : (s.advance n).wX = s.wX := rfl
@[simp] theorem State.advance_areg (n : Nat) (u : Width) (s : State) : (s.advance n).areg u = s.areg u := rfl
@[simp] theorem State.advance_isDevice (n : Nat) (addr : Addr) (s : State) : (s.advance n).isDevice addr = s.isDevice addr := rfl
@[simp] theorem State.advance_byteAt (n : Nat) (addr : Addr) (s : State) : (s.advance n).byteAt addr = s.byteAt addr := rfl
@[simp] theorem State.advance_readByte (n : Nat) (q : ReadPurpose) (addr : Addr) (s : State) : (s.advance n).readByte q addr = s.readByte q addr := rfl

/-! ### `State.setA` -/

@[simp] theorem State.setA_x (w : Width) (r : Word) (s : State) : (s.setA w r).x = s.x := rfl
@[simp] theorem State.setA_y (w : Width) (r : Word) (s : State) : (s.setA w r).y = s.y := rfl
@[simp] theorem State.setA_s (w : Width) (r : Word) (s : State) : (s.setA w r).s = s.s := rfl
@[simp] theorem State.setA_d (w : Width) (r : Word) (s : State) : (s.setA w r).d = s.d := rfl
@[simp] theorem State.setA_dbr (w : Width) (r : Word) (s : State) : (s.setA w r).dbr = s.dbr := rfl
@[simp] theorem State.setA_pbr (w : Width) (r : Word) (s : State) : (s.setA w r).pbr = s.pbr := rfl
@[simp] theorem State.setA_pc (w : Width) (r : Word) (s : State) : (s.setA w r).pc = s.pc := rfl
@[simp] theorem State.setA_p (w : Width) (r : Word) (s : State) : (s.setA w r).p = s.p := rfl
@[simp] theorem State.setA_e (w : Width) (r : Word) (s : State) : (s.setA w r).e = s.e := rfl
@[simp] theorem State.setA_stopped (w : Width) (r : Word) (s : State) : (s.setA w r).stopped = s.stopped := rfl
@[simp] theorem State.setA_waiting (w : Width) (r : Word) (s : State) : (s.setA w r).waiting = s.waiting := rfl
@[simp] theorem State.setA_nmiPending (w : Width) (r : Word) (s : State) : (s.setA w r).nmiPending = s.nmiPending := rfl
@[simp] theorem State.setA_mem (w : Width) (r : Word) (s : State) : (s.setA w r).mem = s.mem := rfl
@[simp] theorem State.setA_ioRegion (w : Width) (r : Word) (s : State) : (s.setA w r).ioRegion = s.ioRegion := rfl
@[simp] theorem State.setA_io (w : Width) (r : Word) (s : State) : (s.setA w r).io = s.io := rfl
@[simp] theorem State.setA_inputs (w : Width) (r : Word) (s : State) : (s.setA w r).inputs = s.inputs := rfl
@[simp] theorem State.setA_draws (w : Width) (r : Word) (s : State) : (s.setA w r).draws = s.draws := rfl
@[simp] theorem State.setA_flag (w : Width) (r : Word) (g : Flag) (s : State) : (s.setA w r).flag g = s.flag g := rfl
@[simp] theorem State.setA_wA (w : Width) (r : Word) (s : State) : (s.setA w r).wA = s.wA := rfl
@[simp] theorem State.setA_wX (w : Width) (r : Word) (s : State) : (s.setA w r).wX = s.wX := rfl
@[simp] theorem State.setA_isDevice (w : Width) (r : Word) (addr : Addr) (s : State) : (s.setA w r).isDevice addr = s.isDevice addr := rfl
@[simp] theorem State.setA_byteAt (w : Width) (r : Word) (addr : Addr) (s : State) : (s.setA w r).byteAt addr = s.byteAt addr := rfl
@[simp] theorem State.setA_readByte (w : Width) (r : Word) (q : ReadPurpose) (addr : Addr) (s : State) : (s.setA w r).readByte q addr = s.readByte q addr := rfl

/-! ### `State.setX` -/

@[simp] theorem State.setX_c (w : Width) (r : Word) (s : State) : (s.setX w r).c = s.c := rfl
@[simp] theorem State.setX_x (w : Width) (r : Word) (s : State) : (s.setX w r).x = trunc w r := rfl
@[simp] theorem State.setX_y (w : Width) (r : Word) (s : State) : (s.setX w r).y = s.y := rfl
@[simp] theorem State.setX_s (w : Width) (r : Word) (s : State) : (s.setX w r).s = s.s := rfl
@[simp] theorem State.setX_d (w : Width) (r : Word) (s : State) : (s.setX w r).d = s.d := rfl
@[simp] theorem State.setX_dbr (w : Width) (r : Word) (s : State) : (s.setX w r).dbr = s.dbr := rfl
@[simp] theorem State.setX_pbr (w : Width) (r : Word) (s : State) : (s.setX w r).pbr = s.pbr := rfl
@[simp] theorem State.setX_pc (w : Width) (r : Word) (s : State) : (s.setX w r).pc = s.pc := rfl
@[simp] theorem State.setX_p (w : Width) (r : Word) (s : State) : (s.setX w r).p = s.p := rfl
@[simp] theorem State.setX_e (w : Width) (r : Word) (s : State) : (s.setX w r).e = s.e := rfl
@[simp] theorem State.setX_stopped (w : Width) (r : Word) (s : State) : (s.setX w r).stopped = s.stopped := rfl
@[simp] theorem State.setX_waiting (w : Width) (r : Word) (s : State) : (s.setX w r).waiting = s.waiting := rfl
@[simp] theorem State.setX_nmiPending (w : Width) (r : Word) (s : State) : (s.setX w r).nmiPending = s.nmiPending := rfl
@[simp] theorem State.setX_mem (w : Width) (r : Word) (s : State) : (s.setX w r).mem = s.mem := rfl
@[simp] theorem State.setX_ioRegion (w : Width) (r : Word) (s : State) : (s.setX w r).ioRegion = s.ioRegion := rfl
@[simp] theorem State.setX_io (w : Width) (r : Word) (s : State) : (s.setX w r).io = s.io := rfl
@[simp] theorem State.setX_inputs (w : Width) (r : Word) (s : State) : (s.setX w r).inputs = s.inputs := rfl
@[simp] theorem State.setX_draws (w : Width) (r : Word) (s : State) : (s.setX w r).draws = s.draws := rfl
@[simp] theorem State.setX_flag (w : Width) (r : Word) (g : Flag) (s : State) : (s.setX w r).flag g = s.flag g := rfl
@[simp] theorem State.setX_wA (w : Width) (r : Word) (s : State) : (s.setX w r).wA = s.wA := rfl
@[simp] theorem State.setX_wX (w : Width) (r : Word) (s : State) : (s.setX w r).wX = s.wX := rfl
@[simp] theorem State.setX_areg (w : Width) (r : Word) (u : Width) (s : State) : (s.setX w r).areg u = s.areg u := rfl
@[simp] theorem State.setX_isDevice (w : Width) (r : Word) (addr : Addr) (s : State) : (s.setX w r).isDevice addr = s.isDevice addr := rfl
@[simp] theorem State.setX_byteAt (w : Width) (r : Word) (addr : Addr) (s : State) : (s.setX w r).byteAt addr = s.byteAt addr := rfl
@[simp] theorem State.setX_readByte (w : Width) (r : Word) (q : ReadPurpose) (addr : Addr) (s : State) : (s.setX w r).readByte q addr = s.readByte q addr := rfl

/-! ### `State.setY` -/

@[simp] theorem State.setY_c (w : Width) (r : Word) (s : State) : (s.setY w r).c = s.c := rfl
@[simp] theorem State.setY_x (w : Width) (r : Word) (s : State) : (s.setY w r).x = s.x := rfl
@[simp] theorem State.setY_y (w : Width) (r : Word) (s : State) : (s.setY w r).y = trunc w r := rfl
@[simp] theorem State.setY_s (w : Width) (r : Word) (s : State) : (s.setY w r).s = s.s := rfl
@[simp] theorem State.setY_d (w : Width) (r : Word) (s : State) : (s.setY w r).d = s.d := rfl
@[simp] theorem State.setY_dbr (w : Width) (r : Word) (s : State) : (s.setY w r).dbr = s.dbr := rfl
@[simp] theorem State.setY_pbr (w : Width) (r : Word) (s : State) : (s.setY w r).pbr = s.pbr := rfl
@[simp] theorem State.setY_pc (w : Width) (r : Word) (s : State) : (s.setY w r).pc = s.pc := rfl
@[simp] theorem State.setY_p (w : Width) (r : Word) (s : State) : (s.setY w r).p = s.p := rfl
@[simp] theorem State.setY_e (w : Width) (r : Word) (s : State) : (s.setY w r).e = s.e := rfl
@[simp] theorem State.setY_stopped (w : Width) (r : Word) (s : State) : (s.setY w r).stopped = s.stopped := rfl
@[simp] theorem State.setY_waiting (w : Width) (r : Word) (s : State) : (s.setY w r).waiting = s.waiting := rfl
@[simp] theorem State.setY_nmiPending (w : Width) (r : Word) (s : State) : (s.setY w r).nmiPending = s.nmiPending := rfl
@[simp] theorem State.setY_mem (w : Width) (r : Word) (s : State) : (s.setY w r).mem = s.mem := rfl
@[simp] theorem State.setY_ioRegion (w : Width) (r : Word) (s : State) : (s.setY w r).ioRegion = s.ioRegion := rfl
@[simp] theorem State.setY_io (w : Width) (r : Word) (s : State) : (s.setY w r).io = s.io := rfl
@[simp] theorem State.setY_inputs (w : Width) (r : Word) (s : State) : (s.setY w r).inputs = s.inputs := rfl
@[simp] theorem State.setY_draws (w : Width) (r : Word) (s : State) : (s.setY w r).draws = s.draws := rfl
@[simp] theorem State.setY_flag (w : Width) (r : Word) (g : Flag) (s : State) : (s.setY w r).flag g = s.flag g := rfl
@[simp] theorem State.setY_wA (w : Width) (r : Word) (s : State) : (s.setY w r).wA = s.wA := rfl
@[simp] theorem State.setY_wX (w : Width) (r : Word) (s : State) : (s.setY w r).wX = s.wX := rfl
@[simp] theorem State.setY_areg (w : Width) (r : Word) (u : Width) (s : State) : (s.setY w r).areg u = s.areg u := rfl
@[simp] theorem State.setY_isDevice (w : Width) (r : Word) (addr : Addr) (s : State) : (s.setY w r).isDevice addr = s.isDevice addr := rfl
@[simp] theorem State.setY_byteAt (w : Width) (r : Word) (addr : Addr) (s : State) : (s.setY w r).byteAt addr = s.byteAt addr := rfl
@[simp] theorem State.setY_readByte (w : Width) (r : Word) (q : ReadPurpose) (addr : Addr) (s : State) : (s.setY w r).readByte q addr = s.readByte q addr := rfl

/-! ### `State.normalize` -/

@[simp] theorem State.normalize_c (s : State) : s.normalize.c = s.c := rfl
@[simp] theorem State.normalize_s (s : State) : s.normalize.s = if s.e then word16 (loByte s.s) 0x01 else s.s := rfl
@[simp] theorem State.normalize_d (s : State) : s.normalize.d = s.d := rfl
@[simp] theorem State.normalize_dbr (s : State) : s.normalize.dbr = s.dbr := rfl
@[simp] theorem State.normalize_pbr (s : State) : s.normalize.pbr = s.pbr := rfl
@[simp] theorem State.normalize_pc (s : State) : s.normalize.pc = s.pc := rfl
@[simp] theorem State.normalize_p (s : State) : s.normalize.p = if s.e then s.p ||| 0x30 else s.p := rfl
@[simp] theorem State.normalize_e (s : State) : s.normalize.e = s.e := rfl
@[simp] theorem State.normalize_stopped (s : State) : s.normalize.stopped = s.stopped := rfl
@[simp] theorem State.normalize_waiting (s : State) : s.normalize.waiting = s.waiting := rfl
@[simp] theorem State.normalize_nmiPending (s : State) : s.normalize.nmiPending = s.nmiPending := rfl
@[simp] theorem State.normalize_mem (s : State) : s.normalize.mem = s.mem := rfl
@[simp] theorem State.normalize_ioRegion (s : State) : s.normalize.ioRegion = s.ioRegion := rfl
@[simp] theorem State.normalize_io (s : State) : s.normalize.io = s.io := rfl
@[simp] theorem State.normalize_inputs (s : State) : s.normalize.inputs = s.inputs := rfl
@[simp] theorem State.normalize_draws (s : State) : s.normalize.draws = s.draws := rfl
@[simp] theorem State.normalize_areg (u : Width) (s : State) : s.normalize.areg u = s.areg u := rfl
@[simp] theorem State.normalize_isDevice (addr : Addr) (s : State) : s.normalize.isDevice addr = s.isDevice addr := rfl
@[simp] theorem State.normalize_byteAt (addr : Addr) (s : State) : s.normalize.byteAt addr = s.byteAt addr := rfl
@[simp] theorem State.normalize_readByte (q : ReadPurpose) (addr : Addr) (s : State) : s.normalize.readByte q addr = s.readByte q addr := rfl

/-! ### `State.setD` -/

@[simp] theorem State.setD_c (v : Word) (s : State) : (s.setD v).c = s.c := rfl
@[simp] theorem State.setD_x (v : Word) (s : State) : (s.setD v).x = s.x := rfl
@[simp] theorem State.setD_y (v : Word) (s : State) : (s.setD v).y = s.y := rfl
@[simp] theorem State.setD_s (v : Word) (s : State) : (s.setD v).s = s.s := rfl
@[simp] theorem State.setD_d (v : Word) (s : State) : (s.setD v).d = v := rfl
@[simp] theorem State.setD_dbr (v : Word) (s : State) : (s.setD v).dbr = s.dbr := rfl
@[simp] theorem State.setD_pbr (v : Word) (s : State) : (s.setD v).pbr = s.pbr := rfl
@[simp] theorem State.setD_pc (v : Word) (s : State) : (s.setD v).pc = s.pc := rfl
@[simp] theorem State.setD_p (v : Word) (s : State) : (s.setD v).p = s.p := rfl
@[simp] theorem State.setD_e (v : Word) (s : State) : (s.setD v).e = s.e := rfl
@[simp] theorem State.setD_stopped (v : Word) (s : State) : (s.setD v).stopped = s.stopped := rfl
@[simp] theorem State.setD_waiting (v : Word) (s : State) : (s.setD v).waiting = s.waiting := rfl
@[simp] theorem State.setD_nmiPending (v : Word) (s : State) : (s.setD v).nmiPending = s.nmiPending := rfl
@[simp] theorem State.setD_mem (v : Word) (s : State) : (s.setD v).mem = s.mem := rfl
@[simp] theorem State.setD_ioRegion (v : Word) (s : State) : (s.setD v).ioRegion = s.ioRegion := rfl
@[simp] theorem State.setD_io (v : Word) (s : State) : (s.setD v).io = s.io := rfl
@[simp] theorem State.setD_inputs (v : Word) (s : State) : (s.setD v).inputs = s.inputs := rfl
@[simp] theorem State.setD_draws (v : Word) (s : State) : (s.setD v).draws = s.draws := rfl
@[simp] theorem State.setD_flag (v : Word) (g : Flag) (s : State) : (s.setD v).flag g = s.flag g := rfl
@[simp] theorem State.setD_wA (v : Word) (s : State) : (s.setD v).wA = s.wA := rfl
@[simp] theorem State.setD_wX (v : Word) (s : State) : (s.setD v).wX = s.wX := rfl
@[simp] theorem State.setD_areg (v : Word) (u : Width) (s : State) : (s.setD v).areg u = s.areg u := rfl
@[simp] theorem State.setD_isDevice (v : Word) (addr : Addr) (s : State) : (s.setD v).isDevice addr = s.isDevice addr := rfl
@[simp] theorem State.setD_byteAt (v : Word) (addr : Addr) (s : State) : (s.setD v).byteAt addr = s.byteAt addr := rfl
@[simp] theorem State.setD_readByte (v : Word) (q : ReadPurpose) (addr : Addr) (s : State) : (s.setD v).readByte q addr = s.readByte q addr := rfl

/-! ### `State.setS` -/

@[simp] theorem State.setS_c (v : Word) (s : State) : (s.setS v).c = s.c := rfl
@[simp] theorem State.setS_x (v : Word) (s : State) : (s.setS v).x = s.x := rfl
@[simp] theorem State.setS_y (v : Word) (s : State) : (s.setS v).y = s.y := rfl
@[simp] theorem State.setS_s (v : Word) (s : State) : (s.setS v).s = v := rfl
@[simp] theorem State.setS_d (v : Word) (s : State) : (s.setS v).d = s.d := rfl
@[simp] theorem State.setS_dbr (v : Word) (s : State) : (s.setS v).dbr = s.dbr := rfl
@[simp] theorem State.setS_pbr (v : Word) (s : State) : (s.setS v).pbr = s.pbr := rfl
@[simp] theorem State.setS_pc (v : Word) (s : State) : (s.setS v).pc = s.pc := rfl
@[simp] theorem State.setS_p (v : Word) (s : State) : (s.setS v).p = s.p := rfl
@[simp] theorem State.setS_e (v : Word) (s : State) : (s.setS v).e = s.e := rfl
@[simp] theorem State.setS_stopped (v : Word) (s : State) : (s.setS v).stopped = s.stopped := rfl
@[simp] theorem State.setS_waiting (v : Word) (s : State) : (s.setS v).waiting = s.waiting := rfl
@[simp] theorem State.setS_nmiPending (v : Word) (s : State) : (s.setS v).nmiPending = s.nmiPending := rfl
@[simp] theorem State.setS_mem (v : Word) (s : State) : (s.setS v).mem = s.mem := rfl
@[simp] theorem State.setS_ioRegion (v : Word) (s : State) : (s.setS v).ioRegion = s.ioRegion := rfl
@[simp] theorem State.setS_io (v : Word) (s : State) : (s.setS v).io = s.io := rfl
@[simp] theorem State.setS_inputs (v : Word) (s : State) : (s.setS v).inputs = s.inputs := rfl
@[simp] theorem State.setS_draws (v : Word) (s : State) : (s.setS v).draws = s.draws := rfl
@[simp] theorem State.setS_flag (v : Word) (g : Flag) (s : State) : (s.setS v).flag g = s.flag g := rfl
@[simp] theorem State.setS_wA (v : Word) (s : State) : (s.setS v).wA = s.wA := rfl
@[simp] theorem State.setS_wX (v : Word) (s : State) : (s.setS v).wX = s.wX := rfl
@[simp] theorem State.setS_areg (v : Word) (u : Width) (s : State) : (s.setS v).areg u = s.areg u := rfl
@[simp] theorem State.setS_isDevice (v : Word) (addr : Addr) (s : State) : (s.setS v).isDevice addr = s.isDevice addr := rfl
@[simp] theorem State.setS_byteAt (v : Word) (addr : Addr) (s : State) : (s.setS v).byteAt addr = s.byteAt addr := rfl
@[simp] theorem State.setS_readByte (v : Word) (q : ReadPurpose) (addr : Addr) (s : State) : (s.setS v).readByte q addr = s.readByte q addr := rfl

/-! ### `State.setDBR` -/

@[simp] theorem State.setDBR_c (b : Byte) (s : State) : (s.setDBR b).c = s.c := rfl
@[simp] theorem State.setDBR_x (b : Byte) (s : State) : (s.setDBR b).x = s.x := rfl
@[simp] theorem State.setDBR_y (b : Byte) (s : State) : (s.setDBR b).y = s.y := rfl
@[simp] theorem State.setDBR_s (b : Byte) (s : State) : (s.setDBR b).s = s.s := rfl
@[simp] theorem State.setDBR_d (b : Byte) (s : State) : (s.setDBR b).d = s.d := rfl
@[simp] theorem State.setDBR_dbr (b : Byte) (s : State) : (s.setDBR b).dbr = b := rfl
@[simp] theorem State.setDBR_pbr (b : Byte) (s : State) : (s.setDBR b).pbr = s.pbr := rfl
@[simp] theorem State.setDBR_pc (b : Byte) (s : State) : (s.setDBR b).pc = s.pc := rfl
@[simp] theorem State.setDBR_p (b : Byte) (s : State) : (s.setDBR b).p = s.p := rfl
@[simp] theorem State.setDBR_e (b : Byte) (s : State) : (s.setDBR b).e = s.e := rfl
@[simp] theorem State.setDBR_stopped (b : Byte) (s : State) : (s.setDBR b).stopped = s.stopped := rfl
@[simp] theorem State.setDBR_waiting (b : Byte) (s : State) : (s.setDBR b).waiting = s.waiting := rfl
@[simp] theorem State.setDBR_nmiPending (b : Byte) (s : State) : (s.setDBR b).nmiPending = s.nmiPending := rfl
@[simp] theorem State.setDBR_mem (b : Byte) (s : State) : (s.setDBR b).mem = s.mem := rfl
@[simp] theorem State.setDBR_ioRegion (b : Byte) (s : State) : (s.setDBR b).ioRegion = s.ioRegion := rfl
@[simp] theorem State.setDBR_io (b : Byte) (s : State) : (s.setDBR b).io = s.io := rfl
@[simp] theorem State.setDBR_inputs (b : Byte) (s : State) : (s.setDBR b).inputs = s.inputs := rfl
@[simp] theorem State.setDBR_draws (b : Byte) (s : State) : (s.setDBR b).draws = s.draws := rfl
@[simp] theorem State.setDBR_flag (b : Byte) (g : Flag) (s : State) : (s.setDBR b).flag g = s.flag g := rfl
@[simp] theorem State.setDBR_wA (b : Byte) (s : State) : (s.setDBR b).wA = s.wA := rfl
@[simp] theorem State.setDBR_wX (b : Byte) (s : State) : (s.setDBR b).wX = s.wX := rfl
@[simp] theorem State.setDBR_areg (b : Byte) (u : Width) (s : State) : (s.setDBR b).areg u = s.areg u := rfl
@[simp] theorem State.setDBR_isDevice (b : Byte) (addr : Addr) (s : State) : (s.setDBR b).isDevice addr = s.isDevice addr := rfl
@[simp] theorem State.setDBR_byteAt (b : Byte) (addr : Addr) (s : State) : (s.setDBR b).byteAt addr = s.byteAt addr := rfl
@[simp] theorem State.setDBR_readByte (b : Byte) (q : ReadPurpose) (addr : Addr) (s : State) : (s.setDBR b).readByte q addr = s.readByte q addr := rfl

/-! ### `State.setPBR` -/

@[simp] theorem State.setPBR_c (b : Byte) (s : State) : (s.setPBR b).c = s.c := rfl
@[simp] theorem State.setPBR_x (b : Byte) (s : State) : (s.setPBR b).x = s.x := rfl
@[simp] theorem State.setPBR_y (b : Byte) (s : State) : (s.setPBR b).y = s.y := rfl
@[simp] theorem State.setPBR_s (b : Byte) (s : State) : (s.setPBR b).s = s.s := rfl
@[simp] theorem State.setPBR_d (b : Byte) (s : State) : (s.setPBR b).d = s.d := rfl
@[simp] theorem State.setPBR_dbr (b : Byte) (s : State) : (s.setPBR b).dbr = s.dbr := rfl
@[simp] theorem State.setPBR_pbr (b : Byte) (s : State) : (s.setPBR b).pbr = b := rfl
@[simp] theorem State.setPBR_pc (b : Byte) (s : State) : (s.setPBR b).pc = s.pc := rfl
@[simp] theorem State.setPBR_p (b : Byte) (s : State) : (s.setPBR b).p = s.p := rfl
@[simp] theorem State.setPBR_e (b : Byte) (s : State) : (s.setPBR b).e = s.e := rfl
@[simp] theorem State.setPBR_stopped (b : Byte) (s : State) : (s.setPBR b).stopped = s.stopped := rfl
@[simp] theorem State.setPBR_waiting (b : Byte) (s : State) : (s.setPBR b).waiting = s.waiting := rfl
@[simp] theorem State.setPBR_nmiPending (b : Byte) (s : State) : (s.setPBR b).nmiPending = s.nmiPending := rfl
@[simp] theorem State.setPBR_mem (b : Byte) (s : State) : (s.setPBR b).mem = s.mem := rfl
@[simp] theorem State.setPBR_ioRegion (b : Byte) (s : State) : (s.setPBR b).ioRegion = s.ioRegion := rfl
@[simp] theorem State.setPBR_io (b : Byte) (s : State) : (s.setPBR b).io = s.io := rfl
@[simp] theorem State.setPBR_inputs (b : Byte) (s : State) : (s.setPBR b).inputs = s.inputs := rfl
@[simp] theorem State.setPBR_draws (b : Byte) (s : State) : (s.setPBR b).draws = s.draws := rfl
@[simp] theorem State.setPBR_flag (b : Byte) (g : Flag) (s : State) : (s.setPBR b).flag g = s.flag g := rfl
@[simp] theorem State.setPBR_wA (b : Byte) (s : State) : (s.setPBR b).wA = s.wA := rfl
@[simp] theorem State.setPBR_wX (b : Byte) (s : State) : (s.setPBR b).wX = s.wX := rfl
@[simp] theorem State.setPBR_areg (b : Byte) (u : Width) (s : State) : (s.setPBR b).areg u = s.areg u := rfl
@[simp] theorem State.setPBR_isDevice (b : Byte) (addr : Addr) (s : State) : (s.setPBR b).isDevice addr = s.isDevice addr := rfl
@[simp] theorem State.setPBR_byteAt (b : Byte) (addr : Addr) (s : State) : (s.setPBR b).byteAt addr = s.byteAt addr := rfl
@[simp] theorem State.setPBR_readByte (b : Byte) (q : ReadPurpose) (addr : Addr) (s : State) : (s.setPBR b).readByte q addr = s.readByte q addr := rfl

/-! ### `State.jump` -/

@[simp] theorem State.jump_c (t : Word) (s : State) : (s.jump t).c = s.c := rfl
@[simp] theorem State.jump_x (t : Word) (s : State) : (s.jump t).x = s.x := rfl
@[simp] theorem State.jump_y (t : Word) (s : State) : (s.jump t).y = s.y := rfl
@[simp] theorem State.jump_s (t : Word) (s : State) : (s.jump t).s = s.s := rfl
@[simp] theorem State.jump_d (t : Word) (s : State) : (s.jump t).d = s.d := rfl
@[simp] theorem State.jump_dbr (t : Word) (s : State) : (s.jump t).dbr = s.dbr := rfl
@[simp] theorem State.jump_pbr (t : Word) (s : State) : (s.jump t).pbr = s.pbr := rfl
@[simp] theorem State.jump_pc (t : Word) (s : State) : (s.jump t).pc = t := rfl
@[simp] theorem State.jump_p (t : Word) (s : State) : (s.jump t).p = s.p := rfl
@[simp] theorem State.jump_e (t : Word) (s : State) : (s.jump t).e = s.e := rfl
@[simp] theorem State.jump_stopped (t : Word) (s : State) : (s.jump t).stopped = s.stopped := rfl
@[simp] theorem State.jump_waiting (t : Word) (s : State) : (s.jump t).waiting = s.waiting := rfl
@[simp] theorem State.jump_nmiPending (t : Word) (s : State) : (s.jump t).nmiPending = s.nmiPending := rfl
@[simp] theorem State.jump_mem (t : Word) (s : State) : (s.jump t).mem = s.mem := rfl
@[simp] theorem State.jump_ioRegion (t : Word) (s : State) : (s.jump t).ioRegion = s.ioRegion := rfl
@[simp] theorem State.jump_io (t : Word) (s : State) : (s.jump t).io = s.io := rfl
@[simp] theorem State.jump_inputs (t : Word) (s : State) : (s.jump t).inputs = s.inputs := rfl
@[simp] theorem State.jump_draws (t : Word) (s : State) : (s.jump t).draws = s.draws := rfl
@[simp] theorem State.jump_flag (t : Word) (g : Flag) (s : State) : (s.jump t).flag g = s.flag g := rfl
@[simp] theorem State.jump_wA (t : Word) (s : State) : (s.jump t).wA = s.wA := rfl
@[simp] theorem State.jump_wX (t : Word) (s : State) : (s.jump t).wX = s.wX := rfl
@[simp] theorem State.jump_areg (t : Word) (u : Width) (s : State) : (s.jump t).areg u = s.areg u := rfl
@[simp] theorem State.jump_isDevice (t : Word) (addr : Addr) (s : State) : (s.jump t).isDevice addr = s.isDevice addr := rfl
@[simp] theorem State.jump_byteAt (t : Word) (addr : Addr) (s : State) : (s.jump t).byteAt addr = s.byteAt addr := rfl
@[simp] theorem State.jump_readByte (t : Word) (q : ReadPurpose) (addr : Addr) (s : State) : (s.jump t).readByte q addr = s.readByte q addr := rfl

/-! ### `State.jumpLong` -/

@[simp] theorem State.jumpLong_c (t : Addr) (s : State) : (s.jumpLong t).c = s.c := rfl
@[simp] theorem State.jumpLong_x (t : Addr) (s : State) : (s.jumpLong t).x = s.x := rfl
@[simp] theorem State.jumpLong_y (t : Addr) (s : State) : (s.jumpLong t).y = s.y := rfl
@[simp] theorem State.jumpLong_s (t : Addr) (s : State) : (s.jumpLong t).s = s.s := rfl
@[simp] theorem State.jumpLong_d (t : Addr) (s : State) : (s.jumpLong t).d = s.d := rfl
@[simp] theorem State.jumpLong_dbr (t : Addr) (s : State) : (s.jumpLong t).dbr = s.dbr := rfl
@[simp] theorem State.jumpLong_pbr (t : Addr) (s : State) : (s.jumpLong t).pbr = (t >>> 16).setWidth 8 := rfl
@[simp] theorem State.jumpLong_pc (t : Addr) (s : State) : (s.jumpLong t).pc = t.setWidth 16 := rfl
@[simp] theorem State.jumpLong_p (t : Addr) (s : State) : (s.jumpLong t).p = s.p := rfl
@[simp] theorem State.jumpLong_e (t : Addr) (s : State) : (s.jumpLong t).e = s.e := rfl
@[simp] theorem State.jumpLong_stopped (t : Addr) (s : State) : (s.jumpLong t).stopped = s.stopped := rfl
@[simp] theorem State.jumpLong_waiting (t : Addr) (s : State) : (s.jumpLong t).waiting = s.waiting := rfl
@[simp] theorem State.jumpLong_nmiPending (t : Addr) (s : State) : (s.jumpLong t).nmiPending = s.nmiPending := rfl
@[simp] theorem State.jumpLong_mem (t : Addr) (s : State) : (s.jumpLong t).mem = s.mem := rfl
@[simp] theorem State.jumpLong_ioRegion (t : Addr) (s : State) : (s.jumpLong t).ioRegion = s.ioRegion := rfl
@[simp] theorem State.jumpLong_io (t : Addr) (s : State) : (s.jumpLong t).io = s.io := rfl
@[simp] theorem State.jumpLong_inputs (t : Addr) (s : State) : (s.jumpLong t).inputs = s.inputs := rfl
@[simp] theorem State.jumpLong_draws (t : Addr) (s : State) : (s.jumpLong t).draws = s.draws := rfl
@[simp] theorem State.jumpLong_flag (t : Addr) (g : Flag) (s : State) : (s.jumpLong t).flag g = s.flag g := rfl
@[simp] theorem State.jumpLong_wA (t : Addr) (s : State) : (s.jumpLong t).wA = s.wA := rfl
@[simp] theorem State.jumpLong_wX (t : Addr) (s : State) : (s.jumpLong t).wX = s.wX := rfl
@[simp] theorem State.jumpLong_areg (t : Addr) (u : Width) (s : State) : (s.jumpLong t).areg u = s.areg u := rfl
@[simp] theorem State.jumpLong_isDevice (t : Addr) (addr : Addr) (s : State) : (s.jumpLong t).isDevice addr = s.isDevice addr := rfl
@[simp] theorem State.jumpLong_byteAt (t : Addr) (addr : Addr) (s : State) : (s.jumpLong t).byteAt addr = s.byteAt addr := rfl
@[simp] theorem State.jumpLong_readByte (t : Addr) (q : ReadPurpose) (addr : Addr) (s : State) : (s.jumpLong t).readByte q addr = s.readByte q addr := rfl

/-! ### `State.setP` -/

@[simp] theorem State.setP_c (v : Byte) (s : State) : (s.setP v).c = s.c := rfl
@[simp] theorem State.setP_s (v : Byte) (s : State) : (s.setP v).s = if s.e then word16 (loByte s.s) 0x01 else s.s := rfl
@[simp] theorem State.setP_d (v : Byte) (s : State) : (s.setP v).d = s.d := rfl
@[simp] theorem State.setP_dbr (v : Byte) (s : State) : (s.setP v).dbr = s.dbr := rfl
@[simp] theorem State.setP_pbr (v : Byte) (s : State) : (s.setP v).pbr = s.pbr := rfl
@[simp] theorem State.setP_pc (v : Byte) (s : State) : (s.setP v).pc = s.pc := rfl
@[simp] theorem State.setP_p (v : Byte) (s : State) : (s.setP v).p = if s.e then v ||| 0x30 else v := rfl
@[simp] theorem State.setP_e (v : Byte) (s : State) : (s.setP v).e = s.e := rfl
@[simp] theorem State.setP_stopped (v : Byte) (s : State) : (s.setP v).stopped = s.stopped := rfl
@[simp] theorem State.setP_waiting (v : Byte) (s : State) : (s.setP v).waiting = s.waiting := rfl
@[simp] theorem State.setP_nmiPending (v : Byte) (s : State) : (s.setP v).nmiPending = s.nmiPending := rfl
@[simp] theorem State.setP_mem (v : Byte) (s : State) : (s.setP v).mem = s.mem := rfl
@[simp] theorem State.setP_ioRegion (v : Byte) (s : State) : (s.setP v).ioRegion = s.ioRegion := rfl
@[simp] theorem State.setP_io (v : Byte) (s : State) : (s.setP v).io = s.io := rfl
@[simp] theorem State.setP_inputs (v : Byte) (s : State) : (s.setP v).inputs = s.inputs := rfl
@[simp] theorem State.setP_draws (v : Byte) (s : State) : (s.setP v).draws = s.draws := rfl
@[simp] theorem State.setP_areg (v : Byte) (u : Width) (s : State) : (s.setP v).areg u = s.areg u := rfl
@[simp] theorem State.setP_isDevice (v : Byte) (addr : Addr) (s : State) : (s.setP v).isDevice addr = s.isDevice addr := rfl
@[simp] theorem State.setP_byteAt (v : Byte) (addr : Addr) (s : State) : (s.setP v).byteAt addr = s.byteAt addr := rfl
@[simp] theorem State.setP_readByte (v : Byte) (q : ReadPurpose) (addr : Addr) (s : State) : (s.setP v).readByte q addr = s.readByte q addr := rfl

/-! ### `State.push8` -/

@[simp] theorem State.push8_c (v : Byte) (s : State) : (s.push8 v).c = s.c := rfl
@[simp] theorem State.push8_x (v : Byte) (s : State) : (s.push8 v).x = s.x := rfl
@[simp] theorem State.push8_y (v : Byte) (s : State) : (s.push8 v).y = s.y := rfl
@[simp] theorem State.push8_s (v : Byte) (s : State) : (s.push8 v).s = stackDown s.e s.s := rfl
@[simp] theorem State.push8_d (v : Byte) (s : State) : (s.push8 v).d = s.d := rfl
@[simp] theorem State.push8_dbr (v : Byte) (s : State) : (s.push8 v).dbr = s.dbr := rfl
@[simp] theorem State.push8_pbr (v : Byte) (s : State) : (s.push8 v).pbr = s.pbr := rfl
@[simp] theorem State.push8_pc (v : Byte) (s : State) : (s.push8 v).pc = s.pc := rfl
@[simp] theorem State.push8_p (v : Byte) (s : State) : (s.push8 v).p = s.p := rfl
@[simp] theorem State.push8_e (v : Byte) (s : State) : (s.push8 v).e = s.e := rfl
@[simp] theorem State.push8_stopped (v : Byte) (s : State) : (s.push8 v).stopped = s.stopped := rfl
@[simp] theorem State.push8_waiting (v : Byte) (s : State) : (s.push8 v).waiting = s.waiting := rfl
@[simp] theorem State.push8_nmiPending (v : Byte) (s : State) : (s.push8 v).nmiPending = s.nmiPending := rfl
@[simp] theorem State.push8_mem (v : Byte) (s : State) : (s.push8 v).mem = s.mem.write (bankAddr 0 s.s).toNat v := rfl
@[simp] theorem State.push8_ioRegion (v : Byte) (s : State) : (s.push8 v).ioRegion = s.ioRegion := rfl
@[simp] theorem State.push8_io (v : Byte) (s : State) : (s.push8 v).io = s.io := rfl
@[simp] theorem State.push8_inputs (v : Byte) (s : State) : (s.push8 v).inputs = s.inputs := rfl
@[simp] theorem State.push8_draws (v : Byte) (s : State) : (s.push8 v).draws = s.draws := rfl
@[simp] theorem State.push8_flag (v : Byte) (g : Flag) (s : State) : (s.push8 v).flag g = s.flag g := rfl
@[simp] theorem State.push8_wA (v : Byte) (s : State) : (s.push8 v).wA = s.wA := rfl
@[simp] theorem State.push8_wX (v : Byte) (s : State) : (s.push8 v).wX = s.wX := rfl
@[simp] theorem State.push8_areg (v : Byte) (u : Width) (s : State) : (s.push8 v).areg u = s.areg u := rfl
@[simp] theorem State.push8_isDevice (v : Byte) (addr : Addr) (s : State) : (s.push8 v).isDevice addr = s.isDevice addr := rfl

/-! ### `State.pushN8` -/

@[simp] theorem State.pushN8_c (v : Byte) (s : State) : (s.pushN8 v).c = s.c := rfl
@[simp] theorem State.pushN8_x (v : Byte) (s : State) : (s.pushN8 v).x = s.x := rfl
@[simp] theorem State.pushN8_y (v : Byte) (s : State) : (s.pushN8 v).y = s.y := rfl
@[simp] theorem State.pushN8_s (v : Byte) (s : State) : (s.pushN8 v).s = s.s - 1 := rfl
@[simp] theorem State.pushN8_d (v : Byte) (s : State) : (s.pushN8 v).d = s.d := rfl
@[simp] theorem State.pushN8_dbr (v : Byte) (s : State) : (s.pushN8 v).dbr = s.dbr := rfl
@[simp] theorem State.pushN8_pbr (v : Byte) (s : State) : (s.pushN8 v).pbr = s.pbr := rfl
@[simp] theorem State.pushN8_pc (v : Byte) (s : State) : (s.pushN8 v).pc = s.pc := rfl
@[simp] theorem State.pushN8_p (v : Byte) (s : State) : (s.pushN8 v).p = s.p := rfl
@[simp] theorem State.pushN8_e (v : Byte) (s : State) : (s.pushN8 v).e = s.e := rfl
@[simp] theorem State.pushN8_stopped (v : Byte) (s : State) : (s.pushN8 v).stopped = s.stopped := rfl
@[simp] theorem State.pushN8_waiting (v : Byte) (s : State) : (s.pushN8 v).waiting = s.waiting := rfl
@[simp] theorem State.pushN8_nmiPending (v : Byte) (s : State) : (s.pushN8 v).nmiPending = s.nmiPending := rfl
@[simp] theorem State.pushN8_mem (v : Byte) (s : State) : (s.pushN8 v).mem = s.mem.write (bankAddr 0 s.s).toNat v := rfl
@[simp] theorem State.pushN8_ioRegion (v : Byte) (s : State) : (s.pushN8 v).ioRegion = s.ioRegion := rfl
@[simp] theorem State.pushN8_io (v : Byte) (s : State) : (s.pushN8 v).io = s.io := rfl
@[simp] theorem State.pushN8_inputs (v : Byte) (s : State) : (s.pushN8 v).inputs = s.inputs := rfl
@[simp] theorem State.pushN8_draws (v : Byte) (s : State) : (s.pushN8 v).draws = s.draws := rfl
@[simp] theorem State.pushN8_flag (v : Byte) (g : Flag) (s : State) : (s.pushN8 v).flag g = s.flag g := rfl
@[simp] theorem State.pushN8_wA (v : Byte) (s : State) : (s.pushN8 v).wA = s.wA := rfl
@[simp] theorem State.pushN8_wX (v : Byte) (s : State) : (s.pushN8 v).wX = s.wX := rfl
@[simp] theorem State.pushN8_areg (v : Byte) (u : Width) (s : State) : (s.pushN8 v).areg u = s.areg u := rfl
@[simp] theorem State.pushN8_isDevice (v : Byte) (addr : Addr) (s : State) : (s.pushN8 v).isDevice addr = s.isDevice addr := rfl

/-! ### `State.push16` -/

@[simp] theorem State.push16_c (v : Word) (s : State) : (s.push16 v).c = s.c := rfl
@[simp] theorem State.push16_x (v : Word) (s : State) : (s.push16 v).x = s.x := rfl
@[simp] theorem State.push16_y (v : Word) (s : State) : (s.push16 v).y = s.y := rfl
@[simp] theorem State.push16_s (v : Word) (s : State) : (s.push16 v).s = stackDown s.e (stackDown s.e s.s) := rfl
@[simp] theorem State.push16_d (v : Word) (s : State) : (s.push16 v).d = s.d := rfl
@[simp] theorem State.push16_dbr (v : Word) (s : State) : (s.push16 v).dbr = s.dbr := rfl
@[simp] theorem State.push16_pbr (v : Word) (s : State) : (s.push16 v).pbr = s.pbr := rfl
@[simp] theorem State.push16_pc (v : Word) (s : State) : (s.push16 v).pc = s.pc := rfl
@[simp] theorem State.push16_p (v : Word) (s : State) : (s.push16 v).p = s.p := rfl
@[simp] theorem State.push16_e (v : Word) (s : State) : (s.push16 v).e = s.e := rfl
@[simp] theorem State.push16_stopped (v : Word) (s : State) : (s.push16 v).stopped = s.stopped := rfl
@[simp] theorem State.push16_waiting (v : Word) (s : State) : (s.push16 v).waiting = s.waiting := rfl
@[simp] theorem State.push16_nmiPending (v : Word) (s : State) : (s.push16 v).nmiPending = s.nmiPending := rfl
@[simp] theorem State.push16_ioRegion (v : Word) (s : State) : (s.push16 v).ioRegion = s.ioRegion := rfl
@[simp] theorem State.push16_io (v : Word) (s : State) : (s.push16 v).io = s.io := rfl
@[simp] theorem State.push16_inputs (v : Word) (s : State) : (s.push16 v).inputs = s.inputs := rfl
@[simp] theorem State.push16_draws (v : Word) (s : State) : (s.push16 v).draws = s.draws := rfl
@[simp] theorem State.push16_flag (v : Word) (g : Flag) (s : State) : (s.push16 v).flag g = s.flag g := rfl
@[simp] theorem State.push16_wA (v : Word) (s : State) : (s.push16 v).wA = s.wA := rfl
@[simp] theorem State.push16_wX (v : Word) (s : State) : (s.push16 v).wX = s.wX := rfl
@[simp] theorem State.push16_areg (v : Word) (u : Width) (s : State) : (s.push16 v).areg u = s.areg u := rfl
@[simp] theorem State.push16_isDevice (v : Word) (addr : Addr) (s : State) : (s.push16 v).isDevice addr = s.isDevice addr := rfl

/-! ### `State.pushN16` -/

@[simp] theorem State.pushN16_c (v : Word) (s : State) : (s.pushN16 v).c = s.c := rfl
@[simp] theorem State.pushN16_x (v : Word) (s : State) : (s.pushN16 v).x = s.x := rfl
@[simp] theorem State.pushN16_y (v : Word) (s : State) : (s.pushN16 v).y = s.y := rfl
@[simp] theorem State.pushN16_s (v : Word) (s : State) : (s.pushN16 v).s = s.s - 1 - 1 := rfl
@[simp] theorem State.pushN16_d (v : Word) (s : State) : (s.pushN16 v).d = s.d := rfl
@[simp] theorem State.pushN16_dbr (v : Word) (s : State) : (s.pushN16 v).dbr = s.dbr := rfl
@[simp] theorem State.pushN16_pbr (v : Word) (s : State) : (s.pushN16 v).pbr = s.pbr := rfl
@[simp] theorem State.pushN16_pc (v : Word) (s : State) : (s.pushN16 v).pc = s.pc := rfl
@[simp] theorem State.pushN16_p (v : Word) (s : State) : (s.pushN16 v).p = s.p := rfl
@[simp] theorem State.pushN16_e (v : Word) (s : State) : (s.pushN16 v).e = s.e := rfl
@[simp] theorem State.pushN16_stopped (v : Word) (s : State) : (s.pushN16 v).stopped = s.stopped := rfl
@[simp] theorem State.pushN16_waiting (v : Word) (s : State) : (s.pushN16 v).waiting = s.waiting := rfl
@[simp] theorem State.pushN16_nmiPending (v : Word) (s : State) : (s.pushN16 v).nmiPending = s.nmiPending := rfl
@[simp] theorem State.pushN16_ioRegion (v : Word) (s : State) : (s.pushN16 v).ioRegion = s.ioRegion := rfl
@[simp] theorem State.pushN16_io (v : Word) (s : State) : (s.pushN16 v).io = s.io := rfl
@[simp] theorem State.pushN16_inputs (v : Word) (s : State) : (s.pushN16 v).inputs = s.inputs := rfl
@[simp] theorem State.pushN16_draws (v : Word) (s : State) : (s.pushN16 v).draws = s.draws := rfl
@[simp] theorem State.pushN16_flag (v : Word) (g : Flag) (s : State) : (s.pushN16 v).flag g = s.flag g := rfl
@[simp] theorem State.pushN16_wA (v : Word) (s : State) : (s.pushN16 v).wA = s.wA := rfl
@[simp] theorem State.pushN16_wX (v : Word) (s : State) : (s.pushN16 v).wX = s.wX := rfl
@[simp] theorem State.pushN16_areg (v : Word) (u : Width) (s : State) : (s.pushN16 v).areg u = s.areg u := rfl
@[simp] theorem State.pushN16_isDevice (v : Word) (addr : Addr) (s : State) : (s.pushN16 v).isDevice addr = s.isDevice addr := rfl

/-! ### `State.pushW` -/

@[simp] theorem State.pushW_c (w : Width) (v : Word) (s : State) : (s.pushW w v).c = s.c := by cases w <;> rfl
@[simp] theorem State.pushW_x (w : Width) (v : Word) (s : State) : (s.pushW w v).x = s.x := by cases w <;> rfl
@[simp] theorem State.pushW_y (w : Width) (v : Word) (s : State) : (s.pushW w v).y = s.y := by cases w <;> rfl
@[simp] theorem State.pushW_d (w : Width) (v : Word) (s : State) : (s.pushW w v).d = s.d := by cases w <;> rfl
@[simp] theorem State.pushW_dbr (w : Width) (v : Word) (s : State) : (s.pushW w v).dbr = s.dbr := by cases w <;> rfl
@[simp] theorem State.pushW_pbr (w : Width) (v : Word) (s : State) : (s.pushW w v).pbr = s.pbr := by cases w <;> rfl
@[simp] theorem State.pushW_pc (w : Width) (v : Word) (s : State) : (s.pushW w v).pc = s.pc := by cases w <;> rfl
@[simp] theorem State.pushW_p (w : Width) (v : Word) (s : State) : (s.pushW w v).p = s.p := by cases w <;> rfl
@[simp] theorem State.pushW_e (w : Width) (v : Word) (s : State) : (s.pushW w v).e = s.e := by cases w <;> rfl
@[simp] theorem State.pushW_stopped (w : Width) (v : Word) (s : State) : (s.pushW w v).stopped = s.stopped := by cases w <;> rfl
@[simp] theorem State.pushW_waiting (w : Width) (v : Word) (s : State) : (s.pushW w v).waiting = s.waiting := by cases w <;> rfl
@[simp] theorem State.pushW_nmiPending (w : Width) (v : Word) (s : State) : (s.pushW w v).nmiPending = s.nmiPending := by cases w <;> rfl
@[simp] theorem State.pushW_ioRegion (w : Width) (v : Word) (s : State) : (s.pushW w v).ioRegion = s.ioRegion := by cases w <;> rfl
@[simp] theorem State.pushW_io (w : Width) (v : Word) (s : State) : (s.pushW w v).io = s.io := by cases w <;> rfl
@[simp] theorem State.pushW_inputs (w : Width) (v : Word) (s : State) : (s.pushW w v).inputs = s.inputs := by cases w <;> rfl
@[simp] theorem State.pushW_draws (w : Width) (v : Word) (s : State) : (s.pushW w v).draws = s.draws := by cases w <;> rfl
@[simp] theorem State.pushW_flag (w : Width) (v : Word) (g : Flag) (s : State) : (s.pushW w v).flag g = s.flag g := by simp [State.flag]
@[simp] theorem State.pushW_wA (w : Width) (v : Word) (s : State) : (s.pushW w v).wA = s.wA := by simp [State.wA]
@[simp] theorem State.pushW_wX (w : Width) (v : Word) (s : State) : (s.pushW w v).wX = s.wX := by simp [State.wX]
@[simp] theorem State.pushW_areg (w : Width) (v : Word) (u : Width) (s : State) : (s.pushW w v).areg u = s.areg u := by simp [State.areg]
@[simp] theorem State.pushW_isDevice (w : Width) (v : Word) (addr : Addr) (s : State) : (s.pushW w v).isDevice addr = s.isDevice addr := by simp [State.isDevice]

/-! ### `State.pull8` -/

@[simp] theorem State.pull8_c (s : State) : s.pull8.2.c = s.c := rfl
@[simp] theorem State.pull8_x (s : State) : s.pull8.2.x = s.x := rfl
@[simp] theorem State.pull8_y (s : State) : s.pull8.2.y = s.y := rfl
@[simp] theorem State.pull8_s (s : State) : s.pull8.2.s = stackUp s.e s.s := rfl
@[simp] theorem State.pull8_d (s : State) : s.pull8.2.d = s.d := rfl
@[simp] theorem State.pull8_dbr (s : State) : s.pull8.2.dbr = s.dbr := rfl
@[simp] theorem State.pull8_pbr (s : State) : s.pull8.2.pbr = s.pbr := rfl
@[simp] theorem State.pull8_pc (s : State) : s.pull8.2.pc = s.pc := rfl
@[simp] theorem State.pull8_p (s : State) : s.pull8.2.p = s.p := rfl
@[simp] theorem State.pull8_e (s : State) : s.pull8.2.e = s.e := rfl
@[simp] theorem State.pull8_stopped (s : State) : s.pull8.2.stopped = s.stopped := rfl
@[simp] theorem State.pull8_waiting (s : State) : s.pull8.2.waiting = s.waiting := rfl
@[simp] theorem State.pull8_nmiPending (s : State) : s.pull8.2.nmiPending = s.nmiPending := rfl
@[simp] theorem State.pull8_mem (s : State) : s.pull8.2.mem = s.mem := rfl
@[simp] theorem State.pull8_ioRegion (s : State) : s.pull8.2.ioRegion = s.ioRegion := rfl
@[simp] theorem State.pull8_io (s : State) : s.pull8.2.io = s.io := rfl
@[simp] theorem State.pull8_inputs (s : State) : s.pull8.2.inputs = s.inputs := rfl
@[simp] theorem State.pull8_draws (s : State) : s.pull8.2.draws = s.draws := rfl
@[simp] theorem State.pull8_flag (g : Flag) (s : State) : s.pull8.2.flag g = s.flag g := rfl
@[simp] theorem State.pull8_wA (s : State) : s.pull8.2.wA = s.wA := rfl
@[simp] theorem State.pull8_wX (s : State) : s.pull8.2.wX = s.wX := rfl
@[simp] theorem State.pull8_areg (u : Width) (s : State) : s.pull8.2.areg u = s.areg u := rfl
@[simp] theorem State.pull8_isDevice (addr : Addr) (s : State) : s.pull8.2.isDevice addr = s.isDevice addr := rfl
@[simp] theorem State.pull8_byteAt (addr : Addr) (s : State) : s.pull8.2.byteAt addr = s.byteAt addr := rfl
@[simp] theorem State.pull8_readByte (q : ReadPurpose) (addr : Addr) (s : State) : s.pull8.2.readByte q addr = s.readByte q addr := rfl

/-! ### `State.pullN8` -/

@[simp] theorem State.pullN8_c (s : State) : s.pullN8.2.c = s.c := rfl
@[simp] theorem State.pullN8_x (s : State) : s.pullN8.2.x = s.x := rfl
@[simp] theorem State.pullN8_y (s : State) : s.pullN8.2.y = s.y := rfl
@[simp] theorem State.pullN8_s (s : State) : s.pullN8.2.s = s.s + 1 := rfl
@[simp] theorem State.pullN8_d (s : State) : s.pullN8.2.d = s.d := rfl
@[simp] theorem State.pullN8_dbr (s : State) : s.pullN8.2.dbr = s.dbr := rfl
@[simp] theorem State.pullN8_pbr (s : State) : s.pullN8.2.pbr = s.pbr := rfl
@[simp] theorem State.pullN8_pc (s : State) : s.pullN8.2.pc = s.pc := rfl
@[simp] theorem State.pullN8_p (s : State) : s.pullN8.2.p = s.p := rfl
@[simp] theorem State.pullN8_e (s : State) : s.pullN8.2.e = s.e := rfl
@[simp] theorem State.pullN8_stopped (s : State) : s.pullN8.2.stopped = s.stopped := rfl
@[simp] theorem State.pullN8_waiting (s : State) : s.pullN8.2.waiting = s.waiting := rfl
@[simp] theorem State.pullN8_nmiPending (s : State) : s.pullN8.2.nmiPending = s.nmiPending := rfl
@[simp] theorem State.pullN8_mem (s : State) : s.pullN8.2.mem = s.mem := rfl
@[simp] theorem State.pullN8_ioRegion (s : State) : s.pullN8.2.ioRegion = s.ioRegion := rfl
@[simp] theorem State.pullN8_io (s : State) : s.pullN8.2.io = s.io := rfl
@[simp] theorem State.pullN8_inputs (s : State) : s.pullN8.2.inputs = s.inputs := rfl
@[simp] theorem State.pullN8_draws (s : State) : s.pullN8.2.draws = s.draws := rfl
@[simp] theorem State.pullN8_flag (g : Flag) (s : State) : s.pullN8.2.flag g = s.flag g := rfl
@[simp] theorem State.pullN8_wA (s : State) : s.pullN8.2.wA = s.wA := rfl
@[simp] theorem State.pullN8_wX (s : State) : s.pullN8.2.wX = s.wX := rfl
@[simp] theorem State.pullN8_areg (u : Width) (s : State) : s.pullN8.2.areg u = s.areg u := rfl
@[simp] theorem State.pullN8_isDevice (addr : Addr) (s : State) : s.pullN8.2.isDevice addr = s.isDevice addr := rfl
@[simp] theorem State.pullN8_byteAt (addr : Addr) (s : State) : s.pullN8.2.byteAt addr = s.byteAt addr := rfl
@[simp] theorem State.pullN8_readByte (q : ReadPurpose) (addr : Addr) (s : State) : s.pullN8.2.readByte q addr = s.readByte q addr := rfl

/-! ### `State.pull16` -/

@[simp] theorem State.pull16_c (s : State) : s.pull16.2.c = s.c := rfl
@[simp] theorem State.pull16_x (s : State) : s.pull16.2.x = s.x := rfl
@[simp] theorem State.pull16_y (s : State) : s.pull16.2.y = s.y := rfl
@[simp] theorem State.pull16_s (s : State) : s.pull16.2.s = stackUp s.e (stackUp s.e s.s) := rfl
@[simp] theorem State.pull16_d (s : State) : s.pull16.2.d = s.d := rfl
@[simp] theorem State.pull16_dbr (s : State) : s.pull16.2.dbr = s.dbr := rfl
@[simp] theorem State.pull16_pbr (s : State) : s.pull16.2.pbr = s.pbr := rfl
@[simp] theorem State.pull16_pc (s : State) : s.pull16.2.pc = s.pc := rfl
@[simp] theorem State.pull16_p (s : State) : s.pull16.2.p = s.p := rfl
@[simp] theorem State.pull16_e (s : State) : s.pull16.2.e = s.e := rfl
@[simp] theorem State.pull16_stopped (s : State) : s.pull16.2.stopped = s.stopped := rfl
@[simp] theorem State.pull16_waiting (s : State) : s.pull16.2.waiting = s.waiting := rfl
@[simp] theorem State.pull16_nmiPending (s : State) : s.pull16.2.nmiPending = s.nmiPending := rfl
@[simp] theorem State.pull16_mem (s : State) : s.pull16.2.mem = s.mem := rfl
@[simp] theorem State.pull16_ioRegion (s : State) : s.pull16.2.ioRegion = s.ioRegion := rfl
@[simp] theorem State.pull16_io (s : State) : s.pull16.2.io = s.io := rfl
@[simp] theorem State.pull16_inputs (s : State) : s.pull16.2.inputs = s.inputs := rfl
@[simp] theorem State.pull16_draws (s : State) : s.pull16.2.draws = s.draws := rfl
@[simp] theorem State.pull16_flag (g : Flag) (s : State) : s.pull16.2.flag g = s.flag g := rfl
@[simp] theorem State.pull16_wA (s : State) : s.pull16.2.wA = s.wA := rfl
@[simp] theorem State.pull16_wX (s : State) : s.pull16.2.wX = s.wX := rfl
@[simp] theorem State.pull16_areg (u : Width) (s : State) : s.pull16.2.areg u = s.areg u := rfl
@[simp] theorem State.pull16_isDevice (addr : Addr) (s : State) : s.pull16.2.isDevice addr = s.isDevice addr := rfl
@[simp] theorem State.pull16_byteAt (addr : Addr) (s : State) : s.pull16.2.byteAt addr = s.byteAt addr := rfl
@[simp] theorem State.pull16_readByte (q : ReadPurpose) (addr : Addr) (s : State) : s.pull16.2.readByte q addr = s.readByte q addr := rfl

/-! ### `State.pullN16` -/

@[simp] theorem State.pullN16_c (s : State) : s.pullN16.2.c = s.c := rfl
@[simp] theorem State.pullN16_x (s : State) : s.pullN16.2.x = s.x := rfl
@[simp] theorem State.pullN16_y (s : State) : s.pullN16.2.y = s.y := rfl
@[simp] theorem State.pullN16_s (s : State) : s.pullN16.2.s = s.s + 1 + 1 := rfl
@[simp] theorem State.pullN16_d (s : State) : s.pullN16.2.d = s.d := rfl
@[simp] theorem State.pullN16_dbr (s : State) : s.pullN16.2.dbr = s.dbr := rfl
@[simp] theorem State.pullN16_pbr (s : State) : s.pullN16.2.pbr = s.pbr := rfl
@[simp] theorem State.pullN16_pc (s : State) : s.pullN16.2.pc = s.pc := rfl
@[simp] theorem State.pullN16_p (s : State) : s.pullN16.2.p = s.p := rfl
@[simp] theorem State.pullN16_e (s : State) : s.pullN16.2.e = s.e := rfl
@[simp] theorem State.pullN16_stopped (s : State) : s.pullN16.2.stopped = s.stopped := rfl
@[simp] theorem State.pullN16_waiting (s : State) : s.pullN16.2.waiting = s.waiting := rfl
@[simp] theorem State.pullN16_nmiPending (s : State) : s.pullN16.2.nmiPending = s.nmiPending := rfl
@[simp] theorem State.pullN16_mem (s : State) : s.pullN16.2.mem = s.mem := rfl
@[simp] theorem State.pullN16_ioRegion (s : State) : s.pullN16.2.ioRegion = s.ioRegion := rfl
@[simp] theorem State.pullN16_io (s : State) : s.pullN16.2.io = s.io := rfl
@[simp] theorem State.pullN16_inputs (s : State) : s.pullN16.2.inputs = s.inputs := rfl
@[simp] theorem State.pullN16_draws (s : State) : s.pullN16.2.draws = s.draws := rfl
@[simp] theorem State.pullN16_flag (g : Flag) (s : State) : s.pullN16.2.flag g = s.flag g := rfl
@[simp] theorem State.pullN16_wA (s : State) : s.pullN16.2.wA = s.wA := rfl
@[simp] theorem State.pullN16_wX (s : State) : s.pullN16.2.wX = s.wX := rfl
@[simp] theorem State.pullN16_areg (u : Width) (s : State) : s.pullN16.2.areg u = s.areg u := rfl
@[simp] theorem State.pullN16_isDevice (addr : Addr) (s : State) : s.pullN16.2.isDevice addr = s.isDevice addr := rfl
@[simp] theorem State.pullN16_byteAt (addr : Addr) (s : State) : s.pullN16.2.byteAt addr = s.byteAt addr := rfl
@[simp] theorem State.pullN16_readByte (q : ReadPurpose) (addr : Addr) (s : State) : s.pullN16.2.readByte q addr = s.readByte q addr := rfl

/-! ### `State.pullN24` -/

@[simp] theorem State.pullN24_c (s : State) : s.pullN24.2.c = s.c := rfl
@[simp] theorem State.pullN24_x (s : State) : s.pullN24.2.x = s.x := rfl
@[simp] theorem State.pullN24_y (s : State) : s.pullN24.2.y = s.y := rfl
@[simp] theorem State.pullN24_s (s : State) : s.pullN24.2.s = s.s + 1 + 1 + 1 := rfl
@[simp] theorem State.pullN24_d (s : State) : s.pullN24.2.d = s.d := rfl
@[simp] theorem State.pullN24_dbr (s : State) : s.pullN24.2.dbr = s.dbr := rfl
@[simp] theorem State.pullN24_pbr (s : State) : s.pullN24.2.pbr = s.pbr := rfl
@[simp] theorem State.pullN24_pc (s : State) : s.pullN24.2.pc = s.pc := rfl
@[simp] theorem State.pullN24_p (s : State) : s.pullN24.2.p = s.p := rfl
@[simp] theorem State.pullN24_e (s : State) : s.pullN24.2.e = s.e := rfl
@[simp] theorem State.pullN24_stopped (s : State) : s.pullN24.2.stopped = s.stopped := rfl
@[simp] theorem State.pullN24_waiting (s : State) : s.pullN24.2.waiting = s.waiting := rfl
@[simp] theorem State.pullN24_nmiPending (s : State) : s.pullN24.2.nmiPending = s.nmiPending := rfl
@[simp] theorem State.pullN24_mem (s : State) : s.pullN24.2.mem = s.mem := rfl
@[simp] theorem State.pullN24_ioRegion (s : State) : s.pullN24.2.ioRegion = s.ioRegion := rfl
@[simp] theorem State.pullN24_io (s : State) : s.pullN24.2.io = s.io := rfl
@[simp] theorem State.pullN24_inputs (s : State) : s.pullN24.2.inputs = s.inputs := rfl
@[simp] theorem State.pullN24_draws (s : State) : s.pullN24.2.draws = s.draws := rfl
@[simp] theorem State.pullN24_flag (g : Flag) (s : State) : s.pullN24.2.flag g = s.flag g := rfl
@[simp] theorem State.pullN24_wA (s : State) : s.pullN24.2.wA = s.wA := rfl
@[simp] theorem State.pullN24_wX (s : State) : s.pullN24.2.wX = s.wX := rfl
@[simp] theorem State.pullN24_areg (u : Width) (s : State) : s.pullN24.2.areg u = s.areg u := rfl
@[simp] theorem State.pullN24_isDevice (addr : Addr) (s : State) : s.pullN24.2.isDevice addr = s.isDevice addr := rfl
@[simp] theorem State.pullN24_byteAt (addr : Addr) (s : State) : s.pullN24.2.byteAt addr = s.byteAt addr := rfl
@[simp] theorem State.pullN24_readByte (q : ReadPurpose) (addr : Addr) (s : State) : s.pullN24.2.readByte q addr = s.readByte q addr := rfl

/-! ### `State.pullW` -/

@[simp] theorem State.pullW_c (w : Width) (s : State) : (s.pullW w).2.c = s.c := by cases w <;> rfl
@[simp] theorem State.pullW_x (w : Width) (s : State) : (s.pullW w).2.x = s.x := by cases w <;> rfl
@[simp] theorem State.pullW_y (w : Width) (s : State) : (s.pullW w).2.y = s.y := by cases w <;> rfl
@[simp] theorem State.pullW_d (w : Width) (s : State) : (s.pullW w).2.d = s.d := by cases w <;> rfl
@[simp] theorem State.pullW_dbr (w : Width) (s : State) : (s.pullW w).2.dbr = s.dbr := by cases w <;> rfl
@[simp] theorem State.pullW_pbr (w : Width) (s : State) : (s.pullW w).2.pbr = s.pbr := by cases w <;> rfl
@[simp] theorem State.pullW_pc (w : Width) (s : State) : (s.pullW w).2.pc = s.pc := by cases w <;> rfl
@[simp] theorem State.pullW_p (w : Width) (s : State) : (s.pullW w).2.p = s.p := by cases w <;> rfl
@[simp] theorem State.pullW_e (w : Width) (s : State) : (s.pullW w).2.e = s.e := by cases w <;> rfl
@[simp] theorem State.pullW_stopped (w : Width) (s : State) : (s.pullW w).2.stopped = s.stopped := by cases w <;> rfl
@[simp] theorem State.pullW_waiting (w : Width) (s : State) : (s.pullW w).2.waiting = s.waiting := by cases w <;> rfl
@[simp] theorem State.pullW_nmiPending (w : Width) (s : State) : (s.pullW w).2.nmiPending = s.nmiPending := by cases w <;> rfl
@[simp] theorem State.pullW_mem (w : Width) (s : State) : (s.pullW w).2.mem = s.mem := by cases w <;> rfl
@[simp] theorem State.pullW_ioRegion (w : Width) (s : State) : (s.pullW w).2.ioRegion = s.ioRegion := by cases w <;> rfl
@[simp] theorem State.pullW_io (w : Width) (s : State) : (s.pullW w).2.io = s.io := by cases w <;> rfl
@[simp] theorem State.pullW_inputs (w : Width) (s : State) : (s.pullW w).2.inputs = s.inputs := by cases w <;> rfl
@[simp] theorem State.pullW_draws (w : Width) (s : State) : (s.pullW w).2.draws = s.draws := by cases w <;> rfl
@[simp] theorem State.pullW_flag (w : Width) (g : Flag) (s : State) : (s.pullW w).2.flag g = s.flag g := by simp [State.flag]
@[simp] theorem State.pullW_wA (w : Width) (s : State) : (s.pullW w).2.wA = s.wA := by simp [State.wA]
@[simp] theorem State.pullW_wX (w : Width) (s : State) : (s.pullW w).2.wX = s.wX := by simp [State.wX]
@[simp] theorem State.pullW_areg (w : Width) (u : Width) (s : State) : (s.pullW w).2.areg u = s.areg u := by simp [State.areg]
@[simp] theorem State.pullW_isDevice (w : Width) (addr : Addr) (s : State) : (s.pullW w).2.isDevice addr = s.isDevice addr := by simp [State.isDevice]
@[simp] theorem State.pullW_byteAt (w : Width) (addr : Addr) (s : State) : (s.pullW w).2.byteAt addr = s.byteAt addr := by simp [State.byteAt]
@[simp] theorem State.pullW_readByte (w : Width) (q : ReadPurpose) (addr : Addr) (s : State) : (s.pullW w).2.readByte q addr = s.readByte q addr := by simp [State.readByte]

/-! ### `State.pushFrame` -/

@[simp] theorem State.pushFrame_c (k : Event) (s : State) : (s.pushFrame k).c = s.c := by unfold State.pushFrame; split <;> rfl
@[simp] theorem State.pushFrame_x (k : Event) (s : State) : (s.pushFrame k).x = s.x := by unfold State.pushFrame; split <;> rfl
@[simp] theorem State.pushFrame_y (k : Event) (s : State) : (s.pushFrame k).y = s.y := by unfold State.pushFrame; split <;> rfl
@[simp] theorem State.pushFrame_d (k : Event) (s : State) : (s.pushFrame k).d = s.d := by unfold State.pushFrame; split <;> rfl
@[simp] theorem State.pushFrame_dbr (k : Event) (s : State) : (s.pushFrame k).dbr = s.dbr := by unfold State.pushFrame; split <;> rfl
@[simp] theorem State.pushFrame_pbr (k : Event) (s : State) : (s.pushFrame k).pbr = s.pbr := by unfold State.pushFrame; split <;> rfl
@[simp] theorem State.pushFrame_pc (k : Event) (s : State) : (s.pushFrame k).pc = s.pc := by unfold State.pushFrame; split <;> rfl
@[simp] theorem State.pushFrame_p (k : Event) (s : State) : (s.pushFrame k).p = s.p := by unfold State.pushFrame; split <;> rfl
@[simp] theorem State.pushFrame_e (k : Event) (s : State) : (s.pushFrame k).e = s.e := by unfold State.pushFrame; split <;> rfl
@[simp] theorem State.pushFrame_stopped (k : Event) (s : State) : (s.pushFrame k).stopped = s.stopped := by unfold State.pushFrame; split <;> rfl
@[simp] theorem State.pushFrame_waiting (k : Event) (s : State) : (s.pushFrame k).waiting = s.waiting := by unfold State.pushFrame; split <;> rfl
@[simp] theorem State.pushFrame_nmiPending (k : Event) (s : State) : (s.pushFrame k).nmiPending = s.nmiPending := by unfold State.pushFrame; split <;> rfl
@[simp] theorem State.pushFrame_ioRegion (k : Event) (s : State) : (s.pushFrame k).ioRegion = s.ioRegion := by unfold State.pushFrame; split <;> rfl
@[simp] theorem State.pushFrame_io (k : Event) (s : State) : (s.pushFrame k).io = s.io := by unfold State.pushFrame; split <;> rfl
@[simp] theorem State.pushFrame_inputs (k : Event) (s : State) : (s.pushFrame k).inputs = s.inputs := by unfold State.pushFrame; split <;> rfl
@[simp] theorem State.pushFrame_draws (k : Event) (s : State) : (s.pushFrame k).draws = s.draws := by unfold State.pushFrame; split <;> rfl
@[simp] theorem State.pushFrame_flag (k : Event) (g : Flag) (s : State) : (s.pushFrame k).flag g = s.flag g := by simp [State.flag]
@[simp] theorem State.pushFrame_wA (k : Event) (s : State) : (s.pushFrame k).wA = s.wA := by simp [State.wA]
@[simp] theorem State.pushFrame_wX (k : Event) (s : State) : (s.pushFrame k).wX = s.wX := by simp [State.wX]
@[simp] theorem State.pushFrame_areg (k : Event) (u : Width) (s : State) : (s.pushFrame k).areg u = s.areg u := by simp [State.areg]
@[simp] theorem State.pushFrame_isDevice (k : Event) (addr : Addr) (s : State) : (s.pushFrame k).isDevice addr = s.isDevice addr := by simp [State.isDevice]

/-! ### `State.interrupt` -/

@[simp] theorem State.interrupt_c (k : Event) (s : State) : (s.interrupt k).c = s.c := by simp [State.interrupt]
@[simp] theorem State.interrupt_x (k : Event) (s : State) : (s.interrupt k).x = s.x := by simp [State.interrupt]
@[simp] theorem State.interrupt_y (k : Event) (s : State) : (s.interrupt k).y = s.y := by simp [State.interrupt]
@[simp] theorem State.interrupt_s (k : Event) (s : State) : (s.interrupt k).s = (s.pushFrame k).s := rfl
@[simp] theorem State.interrupt_d (k : Event) (s : State) : (s.interrupt k).d = s.d := by simp [State.interrupt]
@[simp] theorem State.interrupt_dbr (k : Event) (s : State) : (s.interrupt k).dbr = s.dbr := by simp [State.interrupt]
@[simp] theorem State.interrupt_pbr (k : Event) (s : State) : (s.interrupt k).pbr = 0 := rfl
@[simp] theorem State.interrupt_e (k : Event) (s : State) : (s.interrupt k).e = s.e := by simp [State.interrupt]
@[simp] theorem State.interrupt_stopped (k : Event) (s : State) : (s.interrupt k).stopped = s.stopped := by simp [State.interrupt]
@[simp] theorem State.interrupt_waiting (k : Event) (s : State) : (s.interrupt k).waiting = s.waiting := by simp [State.interrupt]
@[simp] theorem State.interrupt_nmiPending (k : Event) (s : State) : (s.interrupt k).nmiPending = (s.nmiPending && k != .nmi) := rfl
@[simp] theorem State.interrupt_mem (k : Event) (s : State) : (s.interrupt k).mem = (s.pushFrame k).mem := rfl
@[simp] theorem State.interrupt_ioRegion (k : Event) (s : State) : (s.interrupt k).ioRegion = s.ioRegion := by simp [State.interrupt]
@[simp] theorem State.interrupt_io (k : Event) (s : State) : (s.interrupt k).io = s.io := by simp [State.interrupt]
@[simp] theorem State.interrupt_inputs (k : Event) (s : State) : (s.interrupt k).inputs = s.inputs := by simp [State.interrupt]
@[simp] theorem State.interrupt_draws (k : Event) (s : State) : (s.interrupt k).draws = s.draws := by simp [State.interrupt]
@[simp] theorem State.interrupt_areg (k : Event) (u : Width) (s : State) : (s.interrupt k).areg u = s.areg u := by simp [State.areg]
@[simp] theorem State.interrupt_isDevice (k : Event) (addr : Addr) (s : State) : (s.interrupt k).isDevice addr = s.isDevice addr := by simp [State.isDevice]

/-! ### `State.returnFromInterrupt` -/

@[simp] theorem State.returnFromInterrupt_c (s : State) : s.returnFromInterrupt.c = s.c := by unfold State.returnFromInterrupt; dsimp only; split <;> rfl
@[simp] theorem State.returnFromInterrupt_d (s : State) : s.returnFromInterrupt.d = s.d := by unfold State.returnFromInterrupt; dsimp only; split <;> rfl
@[simp] theorem State.returnFromInterrupt_dbr (s : State) : s.returnFromInterrupt.dbr = s.dbr := by unfold State.returnFromInterrupt; dsimp only; split <;> rfl
@[simp] theorem State.returnFromInterrupt_e (s : State) : s.returnFromInterrupt.e = s.e := by unfold State.returnFromInterrupt; dsimp only; split <;> rfl
@[simp] theorem State.returnFromInterrupt_stopped (s : State) : s.returnFromInterrupt.stopped = s.stopped := by unfold State.returnFromInterrupt; dsimp only; split <;> rfl
@[simp] theorem State.returnFromInterrupt_waiting (s : State) : s.returnFromInterrupt.waiting = s.waiting := by unfold State.returnFromInterrupt; dsimp only; split <;> rfl
@[simp] theorem State.returnFromInterrupt_nmiPending (s : State) : s.returnFromInterrupt.nmiPending = s.nmiPending := by unfold State.returnFromInterrupt; dsimp only; split <;> rfl
@[simp] theorem State.returnFromInterrupt_mem (s : State) : s.returnFromInterrupt.mem = s.mem := by unfold State.returnFromInterrupt; dsimp only; split <;> rfl
@[simp] theorem State.returnFromInterrupt_ioRegion (s : State) : s.returnFromInterrupt.ioRegion = s.ioRegion := by unfold State.returnFromInterrupt; dsimp only; split <;> rfl
@[simp] theorem State.returnFromInterrupt_io (s : State) : s.returnFromInterrupt.io = s.io := by unfold State.returnFromInterrupt; dsimp only; split <;> rfl
@[simp] theorem State.returnFromInterrupt_inputs (s : State) : s.returnFromInterrupt.inputs = s.inputs := by unfold State.returnFromInterrupt; dsimp only; split <;> rfl
@[simp] theorem State.returnFromInterrupt_draws (s : State) : s.returnFromInterrupt.draws = s.draws := by unfold State.returnFromInterrupt; dsimp only; split <;> rfl
@[simp] theorem State.returnFromInterrupt_areg (u : Width) (s : State) : s.returnFromInterrupt.areg u = s.areg u := by simp [State.areg]
@[simp] theorem State.returnFromInterrupt_isDevice (addr : Addr) (s : State) : s.returnFromInterrupt.isDevice addr = s.isDevice addr := by simp [State.isDevice]
@[simp] theorem State.returnFromInterrupt_byteAt (addr : Addr) (s : State) : s.returnFromInterrupt.byteAt addr = s.byteAt addr := by simp [State.byteAt]
@[simp] theorem State.returnFromInterrupt_readByte (q : ReadPurpose) (addr : Addr) (s : State) : s.returnFromInterrupt.readByte q addr = s.readByte q addr := by simp [State.readByte]

/-! ### `State.resetEvent` -/

@[simp] theorem State.resetEvent_c (s : State) : s.resetEvent.c = Config.resetC s.draws := rfl
@[simp] theorem State.resetEvent_x (s : State) : s.resetEvent.x = word16 (Config.resetXL s.draws) 0 := rfl
@[simp] theorem State.resetEvent_y (s : State) : s.resetEvent.y = word16 (Config.resetYL s.draws) 0 := rfl
@[simp] theorem State.resetEvent_s (s : State) : s.resetEvent.s = word16 (Config.resetSL s.draws) 0x01 := rfl
@[simp] theorem State.resetEvent_d (s : State) : s.resetEvent.d = 0 := rfl
@[simp] theorem State.resetEvent_dbr (s : State) : s.resetEvent.dbr = 0 := rfl
@[simp] theorem State.resetEvent_pbr (s : State) : s.resetEvent.pbr = 0 := rfl
@[simp] theorem State.resetEvent_pc (s : State) : s.resetEvent.pc = s.readB0 .vector 0xFFFC := rfl
@[simp] theorem State.resetEvent_p (s : State) : s.resetEvent.p = resetP s.draws := rfl
@[simp] theorem State.resetEvent_e (s : State) : s.resetEvent.e = true := rfl
@[simp] theorem State.resetEvent_stopped (s : State) : s.resetEvent.stopped = false := rfl
@[simp] theorem State.resetEvent_waiting (s : State) : s.resetEvent.waiting = false := rfl
@[simp] theorem State.resetEvent_nmiPending (s : State) : s.resetEvent.nmiPending = false := rfl
@[simp] theorem State.resetEvent_mem (s : State) : s.resetEvent.mem = s.mem := rfl
@[simp] theorem State.resetEvent_ioRegion (s : State) : s.resetEvent.ioRegion = s.ioRegion := rfl
@[simp] theorem State.resetEvent_io (s : State) : s.resetEvent.io = s.io := rfl
@[simp] theorem State.resetEvent_inputs (s : State) : s.resetEvent.inputs = s.inputs := rfl
@[simp] theorem State.resetEvent_draws (s : State) : s.resetEvent.draws = s.draws + 1 := rfl
@[simp] theorem State.resetEvent_isDevice (addr : Addr) (s : State) : s.resetEvent.isDevice addr = s.isDevice addr := rfl
@[simp] theorem State.resetEvent_byteAt (addr : Addr) (s : State) : s.resetEvent.byteAt addr = s.byteAt addr := rfl

/-! ### `State.nextInput` -/

@[simp] theorem State.nextInput_c (s : State) : s.nextInput.c = s.c := rfl
@[simp] theorem State.nextInput_x (s : State) : s.nextInput.x = s.x := rfl
@[simp] theorem State.nextInput_y (s : State) : s.nextInput.y = s.y := rfl
@[simp] theorem State.nextInput_s (s : State) : s.nextInput.s = s.s := rfl
@[simp] theorem State.nextInput_d (s : State) : s.nextInput.d = s.d := rfl
@[simp] theorem State.nextInput_dbr (s : State) : s.nextInput.dbr = s.dbr := rfl
@[simp] theorem State.nextInput_pbr (s : State) : s.nextInput.pbr = s.pbr := rfl
@[simp] theorem State.nextInput_pc (s : State) : s.nextInput.pc = s.pc := rfl
@[simp] theorem State.nextInput_p (s : State) : s.nextInput.p = s.p := rfl
@[simp] theorem State.nextInput_e (s : State) : s.nextInput.e = s.e := rfl
@[simp] theorem State.nextInput_stopped (s : State) : s.nextInput.stopped = s.stopped := rfl
@[simp] theorem State.nextInput_waiting (s : State) : s.nextInput.waiting = s.waiting := rfl
@[simp] theorem State.nextInput_nmiPending (s : State) : s.nextInput.nmiPending = s.nmiPending := rfl
@[simp] theorem State.nextInput_mem (s : State) : s.nextInput.mem = s.mem := rfl
@[simp] theorem State.nextInput_ioRegion (s : State) : s.nextInput.ioRegion = s.ioRegion := rfl
@[simp] theorem State.nextInput_io (s : State) : s.nextInput.io = s.input.io := rfl
@[simp] theorem State.nextInput_inputs (s : State) : s.nextInput.inputs = s.inputs.tail := rfl
@[simp] theorem State.nextInput_draws (s : State) : s.nextInput.draws = s.answerDraws := rfl
@[simp] theorem State.nextInput_flag (g : Flag) (s : State) : s.nextInput.flag g = s.flag g := rfl
@[simp] theorem State.nextInput_wA (s : State) : s.nextInput.wA = s.wA := rfl
@[simp] theorem State.nextInput_wX (s : State) : s.nextInput.wX = s.wX := rfl
@[simp] theorem State.nextInput_areg (u : Width) (s : State) : s.nextInput.areg u = s.areg u := rfl
@[simp] theorem State.nextInput_isDevice (addr : Addr) (s : State) : s.nextInput.isDevice addr = s.isDevice addr := rfl
@[simp] theorem State.nextInput_byteAt (addr : Addr) (s : State) : s.nextInput.byteAt addr = s.byteAt addr := rfl

/-! ### `State.latchNmi` -/

@[simp] theorem State.latchNmi_c (edge : Bool) (s : State) : (s.latchNmi edge).c = s.c := rfl
@[simp] theorem State.latchNmi_x (edge : Bool) (s : State) : (s.latchNmi edge).x = s.x := rfl
@[simp] theorem State.latchNmi_y (edge : Bool) (s : State) : (s.latchNmi edge).y = s.y := rfl
@[simp] theorem State.latchNmi_s (edge : Bool) (s : State) : (s.latchNmi edge).s = s.s := rfl
@[simp] theorem State.latchNmi_d (edge : Bool) (s : State) : (s.latchNmi edge).d = s.d := rfl
@[simp] theorem State.latchNmi_dbr (edge : Bool) (s : State) : (s.latchNmi edge).dbr = s.dbr := rfl
@[simp] theorem State.latchNmi_pbr (edge : Bool) (s : State) : (s.latchNmi edge).pbr = s.pbr := rfl
@[simp] theorem State.latchNmi_pc (edge : Bool) (s : State) : (s.latchNmi edge).pc = s.pc := rfl
@[simp] theorem State.latchNmi_p (edge : Bool) (s : State) : (s.latchNmi edge).p = s.p := rfl
@[simp] theorem State.latchNmi_e (edge : Bool) (s : State) : (s.latchNmi edge).e = s.e := rfl
@[simp] theorem State.latchNmi_stopped (edge : Bool) (s : State) : (s.latchNmi edge).stopped = s.stopped := rfl
@[simp] theorem State.latchNmi_waiting (edge : Bool) (s : State) : (s.latchNmi edge).waiting = s.waiting := rfl
@[simp] theorem State.latchNmi_nmiPending (edge : Bool) (s : State) : (s.latchNmi edge).nmiPending = (s.nmiPending || edge) := rfl
@[simp] theorem State.latchNmi_mem (edge : Bool) (s : State) : (s.latchNmi edge).mem = s.mem := rfl
@[simp] theorem State.latchNmi_ioRegion (edge : Bool) (s : State) : (s.latchNmi edge).ioRegion = s.ioRegion := rfl
@[simp] theorem State.latchNmi_io (edge : Bool) (s : State) : (s.latchNmi edge).io = s.io := rfl
@[simp] theorem State.latchNmi_inputs (edge : Bool) (s : State) : (s.latchNmi edge).inputs = s.inputs := rfl
@[simp] theorem State.latchNmi_draws (edge : Bool) (s : State) : (s.latchNmi edge).draws = s.draws := rfl
@[simp] theorem State.latchNmi_flag (edge : Bool) (g : Flag) (s : State) : (s.latchNmi edge).flag g = s.flag g := rfl
@[simp] theorem State.latchNmi_wA (edge : Bool) (s : State) : (s.latchNmi edge).wA = s.wA := rfl
@[simp] theorem State.latchNmi_wX (edge : Bool) (s : State) : (s.latchNmi edge).wX = s.wX := rfl
@[simp] theorem State.latchNmi_areg (edge : Bool) (u : Width) (s : State) : (s.latchNmi edge).areg u = s.areg u := rfl
@[simp] theorem State.latchNmi_isDevice (edge : Bool) (addr : Addr) (s : State) : (s.latchNmi edge).isDevice addr = s.isDevice addr := rfl
@[simp] theorem State.latchNmi_byteAt (edge : Bool) (addr : Addr) (s : State) : (s.latchNmi edge).byteAt addr = s.byteAt addr := rfl
@[simp] theorem State.latchNmi_readByte (edge : Bool) (q : ReadPurpose) (addr : Addr) (s : State) : (s.latchNmi edge).readByte q addr = s.readByte q addr := rfl

/-! ### `State.wake` -/

@[simp] theorem State.wake_c (s : State) : s.wake.c = s.c := rfl
@[simp] theorem State.wake_x (s : State) : s.wake.x = s.x := rfl
@[simp] theorem State.wake_y (s : State) : s.wake.y = s.y := rfl
@[simp] theorem State.wake_s (s : State) : s.wake.s = s.s := rfl
@[simp] theorem State.wake_d (s : State) : s.wake.d = s.d := rfl
@[simp] theorem State.wake_dbr (s : State) : s.wake.dbr = s.dbr := rfl
@[simp] theorem State.wake_pbr (s : State) : s.wake.pbr = s.pbr := rfl
@[simp] theorem State.wake_pc (s : State) : s.wake.pc = s.pc := rfl
@[simp] theorem State.wake_p (s : State) : s.wake.p = s.p := rfl
@[simp] theorem State.wake_e (s : State) : s.wake.e = s.e := rfl
@[simp] theorem State.wake_stopped (s : State) : s.wake.stopped = s.stopped := rfl
@[simp] theorem State.wake_waiting (s : State) : s.wake.waiting = false := rfl
@[simp] theorem State.wake_nmiPending (s : State) : s.wake.nmiPending = s.nmiPending := rfl
@[simp] theorem State.wake_mem (s : State) : s.wake.mem = s.mem := rfl
@[simp] theorem State.wake_ioRegion (s : State) : s.wake.ioRegion = s.ioRegion := rfl
@[simp] theorem State.wake_io (s : State) : s.wake.io = s.io := rfl
@[simp] theorem State.wake_inputs (s : State) : s.wake.inputs = s.inputs := rfl
@[simp] theorem State.wake_draws (s : State) : s.wake.draws = s.draws := rfl
@[simp] theorem State.wake_flag (g : Flag) (s : State) : s.wake.flag g = s.flag g := rfl
@[simp] theorem State.wake_wA (s : State) : s.wake.wA = s.wA := rfl
@[simp] theorem State.wake_wX (s : State) : s.wake.wX = s.wX := rfl
@[simp] theorem State.wake_areg (u : Width) (s : State) : s.wake.areg u = s.areg u := rfl
@[simp] theorem State.wake_isDevice (addr : Addr) (s : State) : s.wake.isDevice addr = s.isDevice addr := rfl
@[simp] theorem State.wake_byteAt (addr : Addr) (s : State) : s.wake.byteAt addr = s.byteAt addr := rfl
@[simp] theorem State.wake_readByte (q : ReadPurpose) (addr : Addr) (s : State) : s.wake.readByte q addr = s.readByte q addr := rfl

/-! ### `State.stop` -/

@[simp] theorem State.stop_c (s : State) : s.stop.c = s.c := rfl
@[simp] theorem State.stop_x (s : State) : s.stop.x = s.x := rfl
@[simp] theorem State.stop_y (s : State) : s.stop.y = s.y := rfl
@[simp] theorem State.stop_s (s : State) : s.stop.s = s.s := rfl
@[simp] theorem State.stop_d (s : State) : s.stop.d = s.d := rfl
@[simp] theorem State.stop_dbr (s : State) : s.stop.dbr = s.dbr := rfl
@[simp] theorem State.stop_pbr (s : State) : s.stop.pbr = s.pbr := rfl
@[simp] theorem State.stop_pc (s : State) : s.stop.pc = s.pc := rfl
@[simp] theorem State.stop_p (s : State) : s.stop.p = s.p := rfl
@[simp] theorem State.stop_e (s : State) : s.stop.e = s.e := rfl
@[simp] theorem State.stop_stopped (s : State) : s.stop.stopped = true := rfl
@[simp] theorem State.stop_waiting (s : State) : s.stop.waiting = s.waiting := rfl
@[simp] theorem State.stop_nmiPending (s : State) : s.stop.nmiPending = s.nmiPending := rfl
@[simp] theorem State.stop_mem (s : State) : s.stop.mem = s.mem := rfl
@[simp] theorem State.stop_ioRegion (s : State) : s.stop.ioRegion = s.ioRegion := rfl
@[simp] theorem State.stop_io (s : State) : s.stop.io = s.io := rfl
@[simp] theorem State.stop_inputs (s : State) : s.stop.inputs = s.inputs := rfl
@[simp] theorem State.stop_draws (s : State) : s.stop.draws = s.draws := rfl
@[simp] theorem State.stop_flag (g : Flag) (s : State) : s.stop.flag g = s.flag g := rfl
@[simp] theorem State.stop_wA (s : State) : s.stop.wA = s.wA := rfl
@[simp] theorem State.stop_wX (s : State) : s.stop.wX = s.wX := rfl
@[simp] theorem State.stop_areg (u : Width) (s : State) : s.stop.areg u = s.areg u := rfl
@[simp] theorem State.stop_isDevice (addr : Addr) (s : State) : s.stop.isDevice addr = s.isDevice addr := rfl
@[simp] theorem State.stop_byteAt (addr : Addr) (s : State) : s.stop.byteAt addr = s.byteAt addr := rfl
@[simp] theorem State.stop_readByte (q : ReadPurpose) (addr : Addr) (s : State) : s.stop.readByte q addr = s.readByte q addr := rfl

/-! ### `State.wait` -/

@[simp] theorem State.wait_c (s : State) : s.wait.c = s.c := rfl
@[simp] theorem State.wait_x (s : State) : s.wait.x = s.x := rfl
@[simp] theorem State.wait_y (s : State) : s.wait.y = s.y := rfl
@[simp] theorem State.wait_s (s : State) : s.wait.s = s.s := rfl
@[simp] theorem State.wait_d (s : State) : s.wait.d = s.d := rfl
@[simp] theorem State.wait_dbr (s : State) : s.wait.dbr = s.dbr := rfl
@[simp] theorem State.wait_pbr (s : State) : s.wait.pbr = s.pbr := rfl
@[simp] theorem State.wait_pc (s : State) : s.wait.pc = s.pc := rfl
@[simp] theorem State.wait_p (s : State) : s.wait.p = s.p := rfl
@[simp] theorem State.wait_e (s : State) : s.wait.e = s.e := rfl
@[simp] theorem State.wait_stopped (s : State) : s.wait.stopped = s.stopped := rfl
@[simp] theorem State.wait_waiting (s : State) : s.wait.waiting = true := rfl
@[simp] theorem State.wait_nmiPending (s : State) : s.wait.nmiPending = s.nmiPending := rfl
@[simp] theorem State.wait_mem (s : State) : s.wait.mem = s.mem := rfl
@[simp] theorem State.wait_ioRegion (s : State) : s.wait.ioRegion = s.ioRegion := rfl
@[simp] theorem State.wait_io (s : State) : s.wait.io = s.io := rfl
@[simp] theorem State.wait_inputs (s : State) : s.wait.inputs = s.inputs := rfl
@[simp] theorem State.wait_draws (s : State) : s.wait.draws = s.draws := rfl
@[simp] theorem State.wait_flag (g : Flag) (s : State) : s.wait.flag g = s.flag g := rfl
@[simp] theorem State.wait_wA (s : State) : s.wait.wA = s.wA := rfl
@[simp] theorem State.wait_wX (s : State) : s.wait.wX = s.wX := rfl
@[simp] theorem State.wait_areg (u : Width) (s : State) : s.wait.areg u = s.areg u := rfl
@[simp] theorem State.wait_isDevice (addr : Addr) (s : State) : s.wait.isDevice addr = s.isDevice addr := rfl
@[simp] theorem State.wait_byteAt (addr : Addr) (s : State) : s.wait.byteAt addr = s.byteAt addr := rfl
@[simp] theorem State.wait_readByte (q : ReadPurpose) (addr : Addr) (s : State) : s.wait.readByte q addr = s.readByte q addr := rfl

/-! ### `State.exchangeCE` -/

@[simp] theorem State.exchangeCE_c (s : State) : s.exchangeCE.c = s.c := rfl
@[simp] theorem State.exchangeCE_d (s : State) : s.exchangeCE.d = s.d := rfl
@[simp] theorem State.exchangeCE_dbr (s : State) : s.exchangeCE.dbr = s.dbr := rfl
@[simp] theorem State.exchangeCE_pbr (s : State) : s.exchangeCE.pbr = s.pbr := rfl
@[simp] theorem State.exchangeCE_pc (s : State) : s.exchangeCE.pc = s.pc := rfl
@[simp] theorem State.exchangeCE_e (s : State) : s.exchangeCE.e = s.flag .c := rfl
@[simp] theorem State.exchangeCE_stopped (s : State) : s.exchangeCE.stopped = s.stopped := rfl
@[simp] theorem State.exchangeCE_waiting (s : State) : s.exchangeCE.waiting = s.waiting := rfl
@[simp] theorem State.exchangeCE_nmiPending (s : State) : s.exchangeCE.nmiPending = s.nmiPending := rfl
@[simp] theorem State.exchangeCE_mem (s : State) : s.exchangeCE.mem = s.mem := rfl
@[simp] theorem State.exchangeCE_ioRegion (s : State) : s.exchangeCE.ioRegion = s.ioRegion := rfl
@[simp] theorem State.exchangeCE_io (s : State) : s.exchangeCE.io = s.io := rfl
@[simp] theorem State.exchangeCE_inputs (s : State) : s.exchangeCE.inputs = s.inputs := rfl
@[simp] theorem State.exchangeCE_draws (s : State) : s.exchangeCE.draws = s.draws := rfl
@[simp] theorem State.exchangeCE_areg (u : Width) (s : State) : s.exchangeCE.areg u = s.areg u := rfl
@[simp] theorem State.exchangeCE_isDevice (addr : Addr) (s : State) : s.exchangeCE.isDevice addr = s.isDevice addr := rfl
@[simp] theorem State.exchangeCE_byteAt (addr : Addr) (s : State) : s.exchangeCE.byteAt addr = s.byteAt addr := rfl
@[simp] theorem State.exchangeCE_readByte (q : ReadPurpose) (addr : Addr) (s : State) : s.exchangeCE.readByte q addr = s.readByte q addr := rfl

/-! ### `State.exchangeBA` -/

@[simp] theorem State.exchangeBA_c (s : State) : s.exchangeBA.c = word16 (hiByte s.c) (loByte s.c) := rfl
@[simp] theorem State.exchangeBA_x (s : State) : s.exchangeBA.x = s.x := rfl
@[simp] theorem State.exchangeBA_y (s : State) : s.exchangeBA.y = s.y := rfl
@[simp] theorem State.exchangeBA_s (s : State) : s.exchangeBA.s = s.s := rfl
@[simp] theorem State.exchangeBA_d (s : State) : s.exchangeBA.d = s.d := rfl
@[simp] theorem State.exchangeBA_dbr (s : State) : s.exchangeBA.dbr = s.dbr := rfl
@[simp] theorem State.exchangeBA_pbr (s : State) : s.exchangeBA.pbr = s.pbr := rfl
@[simp] theorem State.exchangeBA_pc (s : State) : s.exchangeBA.pc = s.pc := rfl
@[simp] theorem State.exchangeBA_e (s : State) : s.exchangeBA.e = s.e := rfl
@[simp] theorem State.exchangeBA_stopped (s : State) : s.exchangeBA.stopped = s.stopped := rfl
@[simp] theorem State.exchangeBA_waiting (s : State) : s.exchangeBA.waiting = s.waiting := rfl
@[simp] theorem State.exchangeBA_nmiPending (s : State) : s.exchangeBA.nmiPending = s.nmiPending := rfl
@[simp] theorem State.exchangeBA_mem (s : State) : s.exchangeBA.mem = s.mem := rfl
@[simp] theorem State.exchangeBA_ioRegion (s : State) : s.exchangeBA.ioRegion = s.ioRegion := rfl
@[simp] theorem State.exchangeBA_io (s : State) : s.exchangeBA.io = s.io := rfl
@[simp] theorem State.exchangeBA_inputs (s : State) : s.exchangeBA.inputs = s.inputs := rfl
@[simp] theorem State.exchangeBA_draws (s : State) : s.exchangeBA.draws = s.draws := rfl
@[simp] theorem State.exchangeBA_isDevice (addr : Addr) (s : State) : s.exchangeBA.isDevice addr = s.isDevice addr := rfl
@[simp] theorem State.exchangeBA_byteAt (addr : Addr) (s : State) : s.exchangeBA.byteAt addr = s.byteAt addr := rfl
@[simp] theorem State.exchangeBA_readByte (q : ReadPurpose) (addr : Addr) (s : State) : s.exchangeBA.readByte q addr = s.readByte q addr := rfl

/-! ### `State.setSum` -/

@[simp] theorem State.setSum_x (w : Width) (r : Word × Bool × Bool) (s : State) : (s.setSum w r).x = s.x := rfl
@[simp] theorem State.setSum_y (w : Width) (r : Word × Bool × Bool) (s : State) : (s.setSum w r).y = s.y := rfl
@[simp] theorem State.setSum_s (w : Width) (r : Word × Bool × Bool) (s : State) : (s.setSum w r).s = s.s := rfl
@[simp] theorem State.setSum_d (w : Width) (r : Word × Bool × Bool) (s : State) : (s.setSum w r).d = s.d := rfl
@[simp] theorem State.setSum_dbr (w : Width) (r : Word × Bool × Bool) (s : State) : (s.setSum w r).dbr = s.dbr := rfl
@[simp] theorem State.setSum_pbr (w : Width) (r : Word × Bool × Bool) (s : State) : (s.setSum w r).pbr = s.pbr := rfl
@[simp] theorem State.setSum_pc (w : Width) (r : Word × Bool × Bool) (s : State) : (s.setSum w r).pc = s.pc := rfl
@[simp] theorem State.setSum_e (w : Width) (r : Word × Bool × Bool) (s : State) : (s.setSum w r).e = s.e := rfl
@[simp] theorem State.setSum_stopped (w : Width) (r : Word × Bool × Bool) (s : State) : (s.setSum w r).stopped = s.stopped := rfl
@[simp] theorem State.setSum_waiting (w : Width) (r : Word × Bool × Bool) (s : State) : (s.setSum w r).waiting = s.waiting := rfl
@[simp] theorem State.setSum_nmiPending (w : Width) (r : Word × Bool × Bool) (s : State) : (s.setSum w r).nmiPending = s.nmiPending := rfl
@[simp] theorem State.setSum_mem (w : Width) (r : Word × Bool × Bool) (s : State) : (s.setSum w r).mem = s.mem := rfl
@[simp] theorem State.setSum_ioRegion (w : Width) (r : Word × Bool × Bool) (s : State) : (s.setSum w r).ioRegion = s.ioRegion := rfl
@[simp] theorem State.setSum_io (w : Width) (r : Word × Bool × Bool) (s : State) : (s.setSum w r).io = s.io := rfl
@[simp] theorem State.setSum_inputs (w : Width) (r : Word × Bool × Bool) (s : State) : (s.setSum w r).inputs = s.inputs := rfl
@[simp] theorem State.setSum_draws (w : Width) (r : Word × Bool × Bool) (s : State) : (s.setSum w r).draws = s.draws := rfl
@[simp] theorem State.setSum_isDevice (w : Width) (r : Word × Bool × Bool) (addr : Addr) (s : State) : (s.setSum w r).isDevice addr = s.isDevice addr := rfl
@[simp] theorem State.setSum_byteAt (w : Width) (r : Word × Bool × Bool) (addr : Addr) (s : State) : (s.setSum w r).byteAt addr = s.byteAt addr := rfl
@[simp] theorem State.setSum_readByte (w : Width) (r : Word × Bool × Bool) (q : ReadPurpose) (addr : Addr) (s : State) : (s.setSum w r).readByte q addr = s.readByte q addr := rfl

/-! ### `State.setDecimal` -/

@[simp] theorem State.setDecimal_x (w : Width) (r : Word × Bool) (s : State) : (s.setDecimal w r).x = s.x := rfl
@[simp] theorem State.setDecimal_y (w : Width) (r : Word × Bool) (s : State) : (s.setDecimal w r).y = s.y := rfl
@[simp] theorem State.setDecimal_s (w : Width) (r : Word × Bool) (s : State) : (s.setDecimal w r).s = s.s := rfl
@[simp] theorem State.setDecimal_d (w : Width) (r : Word × Bool) (s : State) : (s.setDecimal w r).d = s.d := rfl
@[simp] theorem State.setDecimal_dbr (w : Width) (r : Word × Bool) (s : State) : (s.setDecimal w r).dbr = s.dbr := rfl
@[simp] theorem State.setDecimal_pbr (w : Width) (r : Word × Bool) (s : State) : (s.setDecimal w r).pbr = s.pbr := rfl
@[simp] theorem State.setDecimal_pc (w : Width) (r : Word × Bool) (s : State) : (s.setDecimal w r).pc = s.pc := rfl
@[simp] theorem State.setDecimal_e (w : Width) (r : Word × Bool) (s : State) : (s.setDecimal w r).e = s.e := rfl
@[simp] theorem State.setDecimal_stopped (w : Width) (r : Word × Bool) (s : State) : (s.setDecimal w r).stopped = s.stopped := rfl
@[simp] theorem State.setDecimal_waiting (w : Width) (r : Word × Bool) (s : State) : (s.setDecimal w r).waiting = s.waiting := rfl
@[simp] theorem State.setDecimal_nmiPending (w : Width) (r : Word × Bool) (s : State) : (s.setDecimal w r).nmiPending = s.nmiPending := rfl
@[simp] theorem State.setDecimal_mem (w : Width) (r : Word × Bool) (s : State) : (s.setDecimal w r).mem = s.mem := rfl
@[simp] theorem State.setDecimal_ioRegion (w : Width) (r : Word × Bool) (s : State) : (s.setDecimal w r).ioRegion = s.ioRegion := rfl
@[simp] theorem State.setDecimal_io (w : Width) (r : Word × Bool) (s : State) : (s.setDecimal w r).io = s.io := rfl
@[simp] theorem State.setDecimal_inputs (w : Width) (r : Word × Bool) (s : State) : (s.setDecimal w r).inputs = s.inputs := rfl
@[simp] theorem State.setDecimal_draws (w : Width) (r : Word × Bool) (s : State) : (s.setDecimal w r).draws = s.draws + 1 := rfl
@[simp] theorem State.setDecimal_isDevice (w : Width) (r : Word × Bool) (addr : Addr) (s : State) : (s.setDecimal w r).isDevice addr = s.isDevice addr := rfl
@[simp] theorem State.setDecimal_byteAt (w : Width) (r : Word × Bool) (addr : Addr) (s : State) : (s.setDecimal w r).byteAt addr = s.byteAt addr := rfl

/-! ### `State.setInvalidDecimal` -/

@[simp] theorem State.setInvalidDecimal_x (w : Width) (s : State) : (s.setInvalidDecimal w).x = s.x := rfl
@[simp] theorem State.setInvalidDecimal_y (w : Width) (s : State) : (s.setInvalidDecimal w).y = s.y := rfl
@[simp] theorem State.setInvalidDecimal_s (w : Width) (s : State) : (s.setInvalidDecimal w).s = s.s := rfl
@[simp] theorem State.setInvalidDecimal_d (w : Width) (s : State) : (s.setInvalidDecimal w).d = s.d := rfl
@[simp] theorem State.setInvalidDecimal_dbr (w : Width) (s : State) : (s.setInvalidDecimal w).dbr = s.dbr := rfl
@[simp] theorem State.setInvalidDecimal_pbr (w : Width) (s : State) : (s.setInvalidDecimal w).pbr = s.pbr := rfl
@[simp] theorem State.setInvalidDecimal_pc (w : Width) (s : State) : (s.setInvalidDecimal w).pc = s.pc := rfl
@[simp] theorem State.setInvalidDecimal_e (w : Width) (s : State) : (s.setInvalidDecimal w).e = s.e := rfl
@[simp] theorem State.setInvalidDecimal_stopped (w : Width) (s : State) : (s.setInvalidDecimal w).stopped = s.stopped := rfl
@[simp] theorem State.setInvalidDecimal_waiting (w : Width) (s : State) : (s.setInvalidDecimal w).waiting = s.waiting := rfl
@[simp] theorem State.setInvalidDecimal_nmiPending (w : Width) (s : State) : (s.setInvalidDecimal w).nmiPending = s.nmiPending := rfl
@[simp] theorem State.setInvalidDecimal_mem (w : Width) (s : State) : (s.setInvalidDecimal w).mem = s.mem := rfl
@[simp] theorem State.setInvalidDecimal_ioRegion (w : Width) (s : State) : (s.setInvalidDecimal w).ioRegion = s.ioRegion := rfl
@[simp] theorem State.setInvalidDecimal_io (w : Width) (s : State) : (s.setInvalidDecimal w).io = s.io := rfl
@[simp] theorem State.setInvalidDecimal_inputs (w : Width) (s : State) : (s.setInvalidDecimal w).inputs = s.inputs := rfl
@[simp] theorem State.setInvalidDecimal_draws (w : Width) (s : State) : (s.setInvalidDecimal w).draws = s.draws + 1 := rfl
@[simp] theorem State.setInvalidDecimal_isDevice (w : Width) (addr : Addr) (s : State) : (s.setInvalidDecimal w).isDevice addr = s.isDevice addr := rfl
@[simp] theorem State.setInvalidDecimal_byteAt (w : Width) (addr : Addr) (s : State) : (s.setInvalidDecimal w).byteAt addr = s.byteAt addr := rfl

end Sys2Proof.Machine
end

