-- ==== Sys2Proof/Laws/Flags.lean ====
section
/-! SUPPORT. What the flag writes and the width selections do, once: a flag read after a flag write, n and z after
`SetNZ`, a value cut to a width as a number, and `Normalize` on a state that satisfies the mode invariants. -/

namespace Sys2Proof.Machine

/-! ### Single flags -/

theorem getLsbD_setBit (p : Byte) (k j : Nat) (b : Bool) (hk : k < 8) :
    (setBit p k b).getLsbD j = if j = k then b else p.getLsbD j := by
  have h1 : (1#8 <<< k).getLsbD j = decide (j = k) := by
    by_cases h : j = k
    · subst h; simp [hk]
    · rcases Nat.lt_or_gt_of_ne h with h' | h'
      · simp [BitVec.getLsbD_shiftLeft, h, h']
      · have : j - k ≠ 0 := by omega
        simp [BitVec.getLsbD_shiftLeft, h, this]
  unfold setBit
  by_cases h : j = k
  · subst h; cases b <;> simp [hk]
  · cases b
    · by_cases hj : j < 8
      · have : j < k ∨ ¬j - k = 0 := by omega
        simp [h, hj, this]
      · simp [h, BitVec.getLsbD_of_ge p j (by omega)]
    · simp [h1, h]

theorem flagBit_lt (f : Flag) : flagBit f < 8 := by cases f <;> decide

theorem flagBit_inj {f g : Flag} : flagBit f = flagBit g ↔ f = g := by
  cases f <;> cases g <;> simp [flagBit]

/-- A flag after a write of a single flag. -/
theorem State.flag_setFlag (f : Flag) (b : Bool) (g : Flag) (s : State) :
    (s.setFlag f b).flag g = if g = f then b else s.flag g := by
  simp only [State.flag, State.setFlag_p, getLsbD_setBit _ _ _ _ (flagBit_lt f), flagBit_inj]

@[simp] theorem State.flag_setFlag_same (f : Flag) (b : Bool) (s : State) : (s.setFlag f b).flag f = b := by
  simp [State.flag_setFlag]

/-- Two bytes with the same bits under every flag are equal. -/
theorem eq_of_flags {p q : Byte} (h : ∀ f : Flag, p.getLsbD (flagBit f) = q.getLsbD (flagBit f)) : p = q := by
  apply BitVec.eq_of_getLsbD_eq
  intro j hj
  have h0 := h .c; have h1 := h .z; have h2 := h .i; have h3 := h .d
  have h4 := h .x; have h5 := h .m; have h6 := h .v; have h7 := h .n
  simp only [flagBit] at *
  have : j = 0 ∨ j = 1 ∨ j = 2 ∨ j = 3 ∨ j = 4 ∨ j = 5 ∨ j = 6 ∨ j = 7 := by omega
  rcases this with h | h | h | h | h | h | h | h <;> subst h <;> assumption

/-! ### Widths -/

theorem trunc_toNat (w : Width) (v : Word) : (trunc w v).toNat = v.toNat % 2 ^ w.bits := by
  cases w
  · exact Nat.and_two_pow_sub_one_eq_mod v.toNat 8
  · simp only [trunc, Width.bits]; exact (Nat.mod_eq_of_lt v.isLt).symm

theorem trunc_toNat_lt (w : Width) (v : Word) : (trunc w v).toNat < 2 ^ w.bits := by
  rw [trunc_toNat]; exact Nat.mod_lt _ (Nat.two_pow_pos _)

/-- A value already of the width is not cut. -/
theorem trunc_of_lt {w : Width} {v : Word} (h : v.toNat < 2 ^ w.bits) : trunc w v = v :=
  BitVec.eq_of_toNat_eq (by rw [trunc_toNat, Nat.mod_eq_of_lt h])

@[simp] theorem trunc_trunc (w : Width) (v : Word) : trunc w (trunc w v) = trunc w v :=
  trunc_of_lt (trunc_toNat_lt w v)

/-- The top bit of a width as a comparison. -/
theorem msb_eq_decide (w : Width) (v : Word) : msb w v = decide (2 ^ (w.bits - 1) ≤ v.toNat % 2 ^ w.bits) := by
  have hw : ∀ k : Nat, v.getLsbD k = decide (2 ^ k ≤ v.toNat % 2 ^ (k + 1)) := by
    intro k
    rw [BitVec.getLsbD, Nat.testBit_eq_decide_div_mod_eq]
    congr 1
    rw [Nat.pow_succ, Nat.mod_mul]
    have h1 : v.toNat % 2 ^ k < 2 ^ k := Nat.mod_lt _ (Nat.two_pow_pos k)
    have h2 : v.toNat / 2 ^ k % 2 = 0 ∨ v.toNat / 2 ^ k % 2 = 1 := by omega
    rcases h2 with h2 | h2
    · rw [h2]; simp; omega
    · rw [h2]; simp
  cases w
  · exact hw 7
  · exact hw 15

theorem msb_of_lt {w : Width} {v : Word} (h : v.toNat < 2 ^ w.bits) : msb w v = decide (2 ^ (w.bits - 1) ≤ v.toNat) := by
  rw [msb_eq_decide, Nat.mod_eq_of_lt h]

@[simp] theorem msb_trunc (w : Width) (v : Word) : msb w (trunc w v) = msb w v := by
  rw [msb_eq_decide, msb_eq_decide, trunc_toNat, Nat.mod_mod]

theorem areg_toNat_lt (s : State) (w : Width) : (s.areg w).toNat < 2 ^ w.bits := trunc_toNat_lt w s.c

/-! ### n and z -/

/-- The flags after `SetNZ`. -/
theorem State.flag_setNZ (w : Width) (v : Word) (g : Flag) (s : State) :
    (s.setNZ w v).flag g = if g = .n then msb w v else if g = .z then trunc w v == 0 else s.flag g := by
  simp only [State.setNZ, State.flag_setFlag]
  cases g <;> simp

/-- `SetNZ` of a value of the width: n and z describe the number. -/
theorem State.nzOf_setNZ {w : Width} {v : Word} (h : v.toNat < 2 ^ w.bits) (s : State) :
    (s.setNZ w v).nzOf w v.toNat := by
  refine ⟨by simp [State.flag_setNZ, msb_of_lt h], ?_⟩
  simp only [State.flag_setNZ, trunc_of_lt h]
  simp [BitVec.toNat_eq, BEq.beq]

theorem State.keepsFlags_setNZ (w : Width) (v : Word) (s : State) : keepsFlags s (s.setNZ w v) [.n, .z] := by
  intro f hf
  cases f <;> simp_all [State.flag_setNZ]

/-! ### The accumulator -/

/-- The accumulator at a width after `SetA` at that width. -/
@[simp] theorem State.areg_setA (w : Width) (r : Word) (s : State) : (s.setA w r).areg w = trunc w r := by
  cases w
  · apply BitVec.eq_of_toNat_eq
    simp only [State.areg, State.setA, trunc_toNat, word16_toNat, loByte_toNat, Width.bits]
    omega
  · rfl

/-- At width 8, `SetA` keeps `B` (R21). -/
theorem State.keepsB_setA (w : Width) (r : Word) (s : State) : keepsB w s (s.setA w r) := by
  rintro rfl
  simp [State.setA]

/-! ### `Normalize` (R42) -/

theorem State.wX_eq (s : State) : s.wX = if s.flag .x then .w8 else .w16 := rfl

theorem State.wA_eq (s : State) : s.wA = if s.flag .m then .w8 else .w16 := rfl

theorem trunc_w8_of_hi {v : Word} (h : hiByte v = 0) : trunc .w8 v = v := by
  apply trunc_of_lt
  have := congrArg BitVec.toNat h
  rw [hiByte_toNat] at this
  simp at this
  simp only [Width.bits]; omega

theorem hiByte_trunc_w8 (v : Word) : hiByte (trunc .w8 v) = 0 := by
  apply BitVec.eq_of_toNat_eq
  rw [hiByte_toNat, trunc_toNat]
  simp only [Width.bits, show (0 : Byte).toNat = 0 from rfl]; omega

/-- Flags of a byte with bits 5 and 4 set. -/
theorem getLsbD_or_30 (p : Byte) (f : Flag) :
    (p ||| 0x30).getLsbD (flagBit f) = (p.getLsbD (flagBit f) || (f == .m || f == .x)) := by
  cases f <;> simp [flagBit]

/-- The flags after `Normalize`. -/
theorem State.flag_normalize (s : State) (f : Flag) :
    s.normalize.flag f = (s.flag f || (s.e && (f == .m || f == .x))) := by
  simp only [State.flag, State.normalize_p]
  cases s.e
  · simp
  · simp only [if_true, getLsbD_or_30, Bool.true_and]

theorem trunc_ite (b : Bool) (v : Word) :
    (if b = true then trunc .w8 v else v) = trunc (if b = true then .w8 else .w16) v := by cases b <;> rfl

theorem State.normalize_x (s : State) : s.normalize.x = trunc s.normalize.wX s.x :=
  trunc_ite (s.normalize.flag .x) s.x

theorem State.normalize_y (s : State) : s.normalize.y = trunc s.normalize.wX s.y :=
  trunc_ite (s.normalize.flag .x) s.y

/-- `Normalize` establishes the mode invariants. -/
theorem State.modeOk_normalize (s : State) : s.normalize.modeOk := by
  refine ⟨fun he => ?_, fun hx => ?_⟩
  · rw [State.normalize_e] at he
    refine ⟨?_, ?_, ?_⟩
    · rw [State.flag_normalize, he]; simp
    · rw [State.flag_normalize, he]; simp
    · rw [State.normalize_s, he]; simp
  · rw [State.normalize_x, State.normalize_y, State.wX_eq, hx]
    exact ⟨hiByte_trunc_w8 _, hiByte_trunc_w8 _⟩

/-- On a state whose flags, X and Y satisfy the mode invariants `Normalize` only re-establishes `SH`. -/
theorem State.normalize_eq {s : State} (hp : s.e = true → s.flag .m = true ∧ s.flag .x = true)
    (hx : s.flag .x = true → hiByte s.x = 0 ∧ hiByte s.y = 0) :
    s.normalize = { s with s := normalS s.e s.s } := by
  have hpp : (if s.e then s.p ||| 0x30 else s.p) = s.p := by
    split
    · rename_i he
      have h := hp he
      apply eq_of_flags
      intro f
      rw [getLsbD_or_30]
      cases f <;> simp_all [State.flag]
    · rfl
  have hxx : (if s.p.getLsbD (flagBit .x) then trunc .w8 s.x else s.x) = s.x := by
    split
    · rename_i h; exact trunc_w8_of_hi (hx h).1
    · rfl
  have hyy : (if s.p.getLsbD (flagBit .x) then trunc .w8 s.y else s.y) = s.y := by
    split
    · rename_i h; exact trunc_w8_of_hi (hx h).2
    · rfl
  simp only [State.normalize, hpp, hxx, hyy, normalS]

/-- `Normalize` changes nothing in a state that satisfies the mode invariants. -/
theorem State.normalize_of_modeOk {s : State} (h : s.modeOk) : s.normalize = s := by
  rw [State.normalize_eq (fun he => ⟨(h.1 he).1, (h.1 he).2.1⟩) h.2]
  have : normalS s.e s.s = s.s := by
    unfold normalS
    split
    · rename_i he; rw [← (h.1 he).2.2]; simp
    · rfl
  rw [this]

end Sys2Proof.Machine
end

