-- ==== Sys2Proof/Laws/Memory.lean ====
section
/-! SUPPORT. The laws of memory: a read after a write, the canonical form kept by every operation, and what a
read yields in memory and at device addresses. -/

namespace Sys2Proof.Machine

/-! ### Reading after writing -/

@[simp] theorem Memory.lookup_nil (a : Nat) : Memory.lookup [] a = none := rfl

theorem Memory.lookup_cons (k : Nat) (v : Byte) (rest : Memory) (a : Nat) :
    Memory.lookup ((k, v) :: rest) a = if k = a then some v else rest.lookup a := rfl

/-- A location that holds a value reads as it. -/
theorem Memory.read_of_lookup_some {m : Memory} {a : Nat} {v : Byte} (h : m.lookup a = some v) : m.read a = v := by
  simp [Memory.read, h]

/-- A location that holds no value reads as its draw (R81). -/
theorem Memory.read_of_lookup_none {m : Memory} {a : Nat} (h : m.lookup a = none) :
    m.read a = Config.undefinedByte a := by
  simp [Memory.read, h]

/-- After a write a location holds the value written, every other what it held. -/
theorem Memory.lookup_write (m : Memory) (a : Nat) (v : Byte) (b : Nat) :
    (m.write a v).lookup b = if a = b then some v else m.lookup b := by
  induction m with
  | nil => rfl
  | cons cell rest ih =>
    obtain ⟨k, w⟩ := cell
    by_cases h1 : a < k
    · simp [Memory.write, Memory.lookup_cons, h1]
    · by_cases h2 : a = k
      · subst h2
        by_cases hb : a = b <;> simp [Memory.write, Memory.lookup_cons, hb]
      · by_cases hb : k = b
        · subst hb; simp [Memory.write, Memory.lookup_cons, h1, h2]
        · simp [Memory.write, Memory.lookup_cons, h1, h2, hb, ih]

/-- A read after a write gives the value written at that address, and what it gave before at every other. -/
theorem Memory.read_write (m : Memory) (a : Nat) (v : Byte) (b : Nat) :
    (m.write a v).read b = if a = b then v else m.read b := by
  simp only [Memory.read, Memory.lookup_write]
  split <;> rfl

/-- The byte in memory after `MemWrite` (R61). -/
theorem State.byteAt_writeByte (a : Addr) (v : Byte) (k : Addr) (s : State) :
    (s.writeByte a v).byteAt k = if k = a then v else s.byteAt k := by
  simp only [State.byteAt, State.writeByte_mem, Memory.read_write]
  by_cases h : k = a
  · simp [h]
  · have : a.toNat ≠ k.toNat := fun e => h (BitVec.eq_of_toNat_eq e.symm)
    simp [h, this]

@[simp] theorem State.byteAt_writeByte_same (a : Addr) (v : Byte) (s : State) :
    (s.writeByte a v).byteAt a = v := by simp [State.byteAt_writeByte]

theorem State.byteAt_writeByte_other {a k : Addr} (h : k ≠ a) (v : Byte) (s : State) :
    (s.writeByte a v).byteAt k = s.byteAt k := by simp [State.byteAt_writeByte, h]

theorem State.byteAt_push8 (v : Byte) (k : Addr) (s : State) :
    (s.push8 v).byteAt k = if k = bankAddr 0 s.s then v else s.byteAt k :=
  State.byteAt_writeByte (bankAddr 0 s.s) v k s

theorem State.byteAt_pushN8 (v : Byte) (k : Addr) (s : State) :
    (s.pushN8 v).byteAt k = if k = bankAddr 0 s.s then v else s.byteAt k :=
  State.byteAt_writeByte (bankAddr 0 s.s) v k s

/-! ### What a read yields (R61) -/

theorem State.isDevice_iff {s : State} {a : Addr} :
    s.isDevice a = true ↔ ∃ first last, (first, last) ∈ s.ioRegion ∧ first ≤ a.toNat ∧ a.toNat ≤ last := by
  simp [State.isDevice]

/-- Outside `IO_REGION` a read yields the byte in memory. -/
theorem State.readByte_of_memory {s : State} {a : Addr} (h : s.isDevice a = false) (p : ReadPurpose) :
    s.readByte p a = s.byteAt a := by
  simp [State.readByte, h]

/-- In `IO_REGION` a read yields the platform's answer to it, or a draw. -/
theorem State.readByte_of_device {s : State} {a : Addr} (h : s.isDevice a = true) (p : ReadPurpose) :
    s.readByte p a = (answerTo s.io p a).getD (Config.deviceByte s.draws p a) := by
  simp [State.readByte, h]

/-- What a read yields is settled by memory, `IO_REGION`, the answers and the draw number. -/
theorem State.readByte_congr {s t : State} (hm : t.mem = s.mem) (hr : t.ioRegion = s.ioRegion) (hi : t.io = s.io)
    (hd : t.draws = s.draws) (p : ReadPurpose) (a : Addr) : t.readByte p a = s.readByte p a := by
  have h1 : t.isDevice a = s.isDevice a := by simp only [State.isDevice, hr]
  have h2 : t.byteAt a = s.byteAt a := by simp only [State.byteAt, hm]
  unfold State.readByte
  rw [h1, h2, hi, hd]

/-- The first answer listed for a read is the answer to it. -/
theorem answerTo_first {before after : List Answer} {p : ReadPurpose} {a : Addr} (v : Byte)
    (h : ∀ w, ⟨p, a, w⟩ ∉ before) : answerTo (before ++ ⟨p, a, v⟩ :: after) p a = some v := by
  induction before with
  | nil => simp [answerTo]
  | cons x rest ih =>
    have hx : (x.purpose == p && x.addr == a) = false := by
      obtain ⟨q, b, w⟩ := x
      have := h w
      simp only [List.mem_cons, not_or, Answer.mk.injEq, not_and] at this
      by_cases hq : q = p
      · by_cases hb : b = a
        · subst hq; subst hb; exact absurd trivial (this.1 rfl rfl)
        · simp [hb]
      · simp [hq]
    have := ih fun w hw => h w (List.mem_cons_of_mem _ hw)
    simpa [answerTo, hx] using this

/-- Without an answer listed for a read there is none. -/
theorem answerTo_none {io : List Answer} {p : ReadPurpose} {a : Addr} (h : ∀ v, ⟨p, a, v⟩ ∉ io) :
    answerTo io p a = none := by
  simp only [answerTo, Option.map_eq_none_iff, List.find?_eq_none]
  rintro ⟨q, b, w⟩ hx hq
  simp only [Bool.and_eq_true, beq_iff_eq] at hq
  obtain ⟨rfl, rfl⟩ := hq
  exact h w hx

/-- A read after a store: the byte stored at its address, unless that is a device address; else what it yielded before
the store. -/
theorem State.readByte_writeByte (a : Addr) (v : Byte) (p : ReadPurpose) (k : Addr) (s : State) :
    (s.writeByte a v).readByte p k = if s.isDevice k = false ∧ k = a then v else s.readByte p k := by
  unfold State.readByte
  simp only [State.writeByte_isDevice, State.writeByte_io, State.writeByte_draws, State.byteAt_writeByte]
  cases s.isDevice k <;> simp

/-! ### The canonical form -/

/-- Every address listed is above a bound. -/
def Memory.above (m : Memory) (a : Nat) : Bool := m.all (fun cell => decide (a < cell.1))

theorem Memory.wf_cons {a : Nat} {b : Byte} {rest : Memory} :
    Memory.wf ((a, b) :: rest) = true ↔ a < 2 ^ 24 ∧ Memory.above rest a = true ∧ Memory.wf rest = true := by
  simp [Memory.wf, Memory.above, and_assoc]

theorem Memory.above_cons {c k : Nat} {b : Byte} {rest : Memory} :
    Memory.above ((k, b) :: rest) c = true ↔ c < k ∧ Memory.above rest c = true := by
  simp [Memory.above]

theorem Memory.above_mono {m : Memory} {a c : Nat} (h : c ≤ a) (ha : m.above a = true) : m.above c = true := by
  induction m with
  | nil => rfl
  | cons cell rest ih =>
    obtain ⟨k, b⟩ := cell
    rw [Memory.above_cons] at ha ⊢
    exact ⟨by omega, ih ha.2⟩

/-- An address not above the bound is not listed. -/
theorem Memory.lookup_of_above {m : Memory} {a b : Nat} (ha : m.above a = true) (hb : b ≤ a) : m.lookup b = none := by
  induction m with
  | nil => rfl
  | cons cell rest ih =>
    obtain ⟨k, v⟩ := cell
    rw [Memory.above_cons] at ha
    have : k ≠ b := by omega
    simp [Memory.lookup_cons, this, ih ha.2]

theorem Memory.above_write {m : Memory} {a c : Nat} {v : Byte} (h : m.above c = true) (hc : c < a) :
    (m.write a v).above c = true := by
  induction m with
  | nil => simp [Memory.write, Memory.above, hc]
  | cons cell rest ih =>
    obtain ⟨k, w⟩ := cell
    have h' := Memory.above_cons.1 h
    unfold Memory.write
    split
    · exact Memory.above_cons.2 ⟨hc, h⟩
    · split
      · exact Memory.above_cons.2 ⟨hc, h'.2⟩
      · exact Memory.above_cons.2 ⟨h'.1, ih h'.2⟩

/-- A write keeps the canonical form. -/
theorem Memory.wf_write {m : Memory} {a : Nat} {v : Byte} (h : m.wf = true) (ha : a < 2 ^ 24) :
    (m.write a v).wf = true := by
  induction m with
  | nil => exact Memory.wf_cons.2 ⟨ha, rfl, rfl⟩
  | cons cell rest ih =>
    obtain ⟨k, w⟩ := cell
    have h' := Memory.wf_cons.1 h
    unfold Memory.write
    split
    · rename_i hlt
      exact Memory.wf_cons.2 ⟨ha, Memory.above_cons.2 ⟨hlt, Memory.above_mono (Nat.le_of_lt hlt) h'.2.1⟩, h⟩
    · split
      · rename_i heq
        subst heq
        exact Memory.wf_cons.2 ⟨ha, h'.2.1, h'.2.2⟩
      · have hlt : k < a := by omega
        exact Memory.wf_cons.2 ⟨h'.1, Memory.above_write h'.2.1 hlt, ih h'.2.2⟩

/-- The reset memory has the canonical form. -/
theorem reset_memory_wf : State.reset.mem.wf = true := rfl

/-! ### Every operation of the machine keeps the canonical form -/

theorem State.wf_writeByte {a : Addr} {v : Byte} {s : State} (h : s.mem.wf = true) :
    (s.writeByte a v).mem.wf = true := Memory.wf_write h a.isLt

theorem State.wf_writeLoc {l : Loc} {w : Width} {v : Word} {s : State} (h : s.mem.wf = true) :
    (s.writeLoc l w v).mem.wf = true := by
  cases w
  · exact State.wf_writeByte h
  · exact State.wf_writeByte (State.wf_writeByte h)

theorem State.wf_writeBack {l : Loc} {w : Width} {v : Word} {s : State} (h : s.mem.wf = true) :
    (s.writeBack l w v).mem.wf = true := by
  cases w
  · exact State.wf_writeByte h
  · exact State.wf_writeByte (State.wf_writeByte h)

theorem State.wf_push8 {v : Byte} {s : State} (h : s.mem.wf = true) : (s.push8 v).mem.wf = true :=
  Memory.wf_write h (BitVec.isLt _)

theorem State.wf_pushN8 {v : Byte} {s : State} (h : s.mem.wf = true) : (s.pushN8 v).mem.wf = true :=
  Memory.wf_write h (BitVec.isLt _)

theorem State.wf_push16 {v : Word} {s : State} (h : s.mem.wf = true) : (s.push16 v).mem.wf = true :=
  State.wf_push8 (State.wf_push8 h)

theorem State.wf_pushN16 {v : Word} {s : State} (h : s.mem.wf = true) : (s.pushN16 v).mem.wf = true :=
  State.wf_pushN8 (State.wf_pushN8 h)

theorem State.wf_pushW {w : Width} {v : Word} {s : State} (h : s.mem.wf = true) : (s.pushW w v).mem.wf = true := by
  cases w
  · exact State.wf_push8 h
  · exact State.wf_push16 h

theorem State.wf_pushFrame {k : Event} {s : State} (h : s.mem.wf = true) : (s.pushFrame k).mem.wf = true := by
  unfold State.pushFrame
  split
  · exact State.wf_push8 (State.wf_push16 h)
  · exact State.wf_push8 (State.wf_push16 (State.wf_push8 h))

theorem State.wf_interrupt {k : Event} {s : State} (h : s.mem.wf = true) : (s.interrupt k).mem.wf = true := by
  rw [State.interrupt_mem]; exact State.wf_pushFrame h

theorem State.wf_placeBytes {bytes : List Byte} {k : Nat} {s : State} (h : s.mem.wf = true) :
    (State.placeBytes bytes k s).mem.wf = true := by
  induction bytes generalizing k s with
  | nil => exact h
  | cons b rest ih => exact ih (State.wf_writeByte h)

end Sys2Proof.Machine
end

