-- ==== Sys2Proof/Laws/Ops.lean ====
section
/-! SUPPORT. What the shared operations do, once for each: reading and writing an operand's location, the stack
primitives, taking an event. -/

namespace Sys2Proof.Machine

/-! ### Locations -/

/-- A location holds the low bits of the value stored there last. -/
theorem State.contents_writeLoc (l : Loc) (w : Width) (v : Word) (s : State) :
    (s.writeLoc l w v).contents l w = trunc w v := by
  cases w
  · apply BitVec.eq_of_toNat_eq
    have := v.isLt
    simp only [State.contents, State.writeLoc, State.byteAt_writeByte_same, BitVec.toNat_setWidth, loByte_toNat,
      trunc_toNat, Width.bits]
    omega
  · simp [State.contents, State.writeLoc, State.byteAt_writeByte, (Loc.next_ne l).symm, trunc]

theorem State.contents_writeBack (l : Loc) (w : Width) (v : Word) (s : State) :
    (s.writeBack l w v).contents l w = trunc w v := by
  cases w
  · exact State.contents_writeLoc l .w8 v s
  · simp [State.contents, State.writeBack, State.byteAt_writeByte, Loc.next_ne l, trunc]

/-- Outside `IO_REGION` an operand read yields what memory holds at the location. -/
theorem State.readLoc_of_memory {s : State} {l : Loc} {w : Width} (h : ∀ a ∈ locBytes l w, s.isDevice a = false) :
    s.readLoc l w = s.contents l w := by
  cases w
  · simp only [State.readLoc, State.contents, State.readByte_of_memory (h _ (List.mem_singleton_self _))]
  · simp only [locBytes, List.mem_cons, List.not_mem_nil, or_false, forall_eq_or_imp, forall_eq] at h
    simp only [State.readLoc, State.read16, State.contents, State.readByte_of_memory h.1,
      State.readByte_of_memory h.2]

/-- A store keeps every byte outside its location. -/
theorem State.keepsBytes_writeLoc (l : Loc) (w : Width) (v : Word) (s : State) :
    keepsBytes s (s.writeLoc l w v) (locBytes l w) := by
  intro a ha
  cases w <;> simp_all [State.writeLoc, locBytes, State.byteAt_writeByte]

theorem State.keepsBytes_writeBack (l : Loc) (w : Width) (v : Word) (s : State) :
    keepsBytes s (s.writeBack l w v) (locBytes l w) := by
  intro a ha
  cases w <;> simp_all [State.writeBack, locBytes, State.byteAt_writeByte]

/-- An operand read fits its width. -/
theorem State.readLoc_lt (s : State) (l : Loc) (w : Width) : (s.readLoc l w).toNat < 2 ^ w.bits := by
  cases w
  · have := (s.readByte .data l.addr).isLt
    simp only [State.readLoc, BitVec.toNat_setWidth, Width.bits]
    omega
  · exact (s.readLoc l .w16).isLt

theorem immValue_lt (w : Width) (i : Imm) : (immValue w i).toNat < 2 ^ w.bits := by
  cases i with
  | byte v => have := v.isLt; cases w <;> (simp only [immValue, BitVec.toNat_setWidth, Width.bits]; omega)
  | word v => exact trunc_toNat_lt w v

/-- An operand fits its width. -/
theorem Operand.value_lt (o : Operand) (s : State) (w : Width) : (o.value s w).toNat < 2 ^ w.bits := by
  cases o
  · exact immValue_lt w _
  · exact State.readLoc_lt s _ w

/-! ### The stack pointer -/

theorem stackBelow_native (sp : Word) (k : Nat) : stackBelow false sp k = sp - BitVec.ofNat 16 k := by
  induction k with
  | zero => simp [stackBelow]
  | succ k ih =>
    simp only [stackBelow, ih, stackDown, Bool.false_eq_true, if_false]
    apply BitVec.eq_of_toNat_eq
    simp [BitVec.toNat_sub]; omega

theorem stackBelow_emulation (sp : Word) (k : Nat) :
    stackBelow true sp k = word16 (loByte sp - BitVec.ofNat 8 k) (hiByte sp) := by
  induction k with
  | zero => simp [stackBelow]
  | succ k ih =>
    simp only [stackBelow, ih, stackDown, if_true, loByte_word16, hiByte_word16, word16_inj, and_true]
    apply BitVec.eq_of_toNat_eq
    simp [BitVec.toNat_sub]; omega

theorem stackAbove_native (sp : Word) (k : Nat) : stackAbove false sp k = sp + BitVec.ofNat 16 k := by
  induction k with
  | zero => simp [stackAbove]
  | succ k ih =>
    simp only [stackAbove, ih, stackUp, Bool.false_eq_true, if_false]
    apply BitVec.eq_of_toNat_eq
    simp; omega

theorem stackAbove_emulation (sp : Word) (k : Nat) :
    stackAbove true sp k = word16 (loByte sp + BitVec.ofNat 8 k) (hiByte sp) := by
  induction k with
  | zero => simp [stackAbove]
  | succ k ih =>
    simp only [stackAbove, ih, stackUp, if_true, loByte_word16, hiByte_word16, word16_inj, and_true]
    apply BitVec.eq_of_toNat_eq
    simp; omega

/-- The first push counted before or after the others. -/
theorem stackBelow_succ (e : Bool) (sp : Word) (k : Nat) :
    stackBelow e (stackDown e sp) k = stackBelow e sp (k + 1) := by
  induction k with
  | zero => rfl
  | succ k ih => exact congrArg (stackDown e) ih

/-- Fewer than 256 pushes do not come back to where they began. -/
theorem stackBelow_ne {k : Nat} (e : Bool) (sp : Word) (h0 : 0 < k) (h : k < 256) : stackBelow e sp k ≠ sp := by
  intro he
  cases e
  · rw [stackBelow_native] at he
    have := congrArg BitVec.toNat he
    have hs := sp.isLt
    simp [BitVec.toNat_sub] at this
    omega
  · rw [stackBelow_emulation] at he
    have := congrArg (fun v => (loByte v).toNat) he
    have hs := (loByte sp).isLt
    simp [BitVec.toNat_sub] at this
    omega

/-! ### Pushes -/

/-- A list of bytes pushed one after the other (R68). -/
def pushList : List Byte → State → State
  | [], s => s
  | b :: rest, s => pushList rest (s.push8 b)

theorem pushAddr_push8 (s : State) (b : Byte) (k : Nat) : (s.push8 b).pushAddr k = s.pushAddr (k + 1) := by
  simp only [State.pushAddr, State.push8_e, State.push8_s, stackBelow_succ]

theorem pushAddr_ne {s : State} {k : Nat} (h0 : 0 < k) (h : k < 256) : s.pushAddr k ≠ s.pushAddr 0 := by
  intro he
  exact stackBelow_ne s.e s.s h0 h (bankAddr_inj.1 he).2

theorem pushList_e (bytes : List Byte) (s : State) : (pushList bytes s).e = s.e := by
  induction bytes generalizing s with
  | nil => rfl
  | cons b rest ih => exact ih (s.push8 b)

/-- What a list of pushes does to `S`. -/
theorem pushList_s (bytes : List Byte) (s : State) : (pushList bytes s).s = stackBelow s.e s.s bytes.length := by
  induction bytes generalizing s with
  | nil => rfl
  | cons b rest ih =>
    simp only [pushList, ih, State.push8_e, State.push8_s, stackBelow_succ, List.length_cons]

theorem mem_pushAddrs {s : State} {n : Nat} {a : Addr} : a ∈ s.pushAddrs n ↔ ∃ k, k < n ∧ s.pushAddr k = a := by
  simp [State.pushAddrs]

/-- A list of pushes keeps every byte but those at its addresses. -/
theorem pushList_keepsBytes (bytes : List Byte) (s : State) :
    keepsBytes s (pushList bytes s) (s.pushAddrs bytes.length) := by
  induction bytes generalizing s with
  | nil => intro a _; rfl
  | cons b rest ih =>
    intro a ha
    have h0 : s.pushAddr 0 ≠ a := fun h => ha (mem_pushAddrs.2 ⟨0, by simp, h⟩)
    have h1 : a ∉ (s.push8 b).pushAddrs rest.length := by
      intro hm
      obtain ⟨k, hk, hk'⟩ := mem_pushAddrs.1 hm
      rw [pushAddr_push8] at hk'
      exact ha (mem_pushAddrs.2 ⟨k + 1, by simp; omega, hk'⟩)
    rw [pushList, ih (s.push8 b) a h1, State.byteAt_push8, if_neg]
    exact fun h => h0 h.symm

/-- The bytes of a list of pushes lie where they were pushed. -/
theorem pushList_pushed (bytes : List Byte) (s : State) (h : bytes.length ≤ 256) :
    pushed s (pushList bytes s) bytes := by
  induction bytes generalizing s with
  | nil => intro k hk; simp at hk
  | cons b rest ih =>
    intro k hk
    cases k with
    | zero =>
      have h1 : s.pushAddr 0 ∉ (s.push8 b).pushAddrs rest.length := by
        intro hm
        obtain ⟨k, hk, hk'⟩ := mem_pushAddrs.1 hm
        rw [pushAddr_push8] at hk'
        simp only [List.length_cons] at h
        exact pushAddr_ne (by omega) (by omega) hk'
      have := pushList_keepsBytes rest (s.push8 b) (s.pushAddr 0) h1
      rw [pushList, this, State.byteAt_push8]
      simp [State.pushAddr, stackBelow]
    | succ k =>
      have := ih (s.push8 b) (by simp at h; omega) k (by simp at hk; omega)
      rw [pushAddr_push8] at this
      simpa [pushList] using this

/-- Pushes change only memory and `S`. -/
theorem pushList_eq (bytes : List Byte) (s : State) :
    pushList bytes s = { s with mem := (pushList bytes s).mem, s := (pushList bytes s).s } := by
  induction bytes generalizing s with
  | nil => rfl
  | cons b rest ih => rw [pushList, ih (s.push8 b)]; rfl

theorem State.push16_eq (v : Word) (s : State) : s.push16 v = pushList [hiByte v, loByte v] s := rfl

theorem State.pushW_eq (w : Width) (v : Word) (s : State) :
    s.pushW w v = pushList (if w = .w8 then [loByte v] else [hiByte v, loByte v]) s := by
  cases w <;> rfl

/-- The pushes of an event are its frame, in push order (R348). -/
theorem State.pushFrame_eq (k : Event) (s : State) :
    s.pushFrame k = pushList (frame s s.pc (pushedStatus s.e s.p k)) s := by
  unfold State.pushFrame frame
  cases s.e <;> rfl

theorem frame_length (s : State) (r : Word) (p : Byte) : (frame s r p).length = frameBytes s.e := by
  unfold frame frameBytes
  cases s.e <;> rfl

/-! ### Pushes that count `S` as 16 bits (R70) -/

/-- A list of bytes pushed one after the other with `S` as 16 bits. -/
def pushNList : List Byte → State → State
  | [], s => s
  | b :: rest, s => pushNList rest (s.pushN8 b)

theorem sub_one_sub (sp : Word) (k : Nat) : sp - 1 - BitVec.ofNat 16 k = sp - BitVec.ofNat 16 (k + 1) := by
  apply BitVec.eq_of_toNat_eq
  simp [BitVec.toNat_sub]; omega

theorem pushNList_s (bytes : List Byte) (s : State) :
    (pushNList bytes s).s = s.s - BitVec.ofNat 16 bytes.length := by
  induction bytes generalizing s with
  | nil => simp [pushNList]
  | cons b rest ih => simp only [pushNList, ih, State.pushN8_s, sub_one_sub, List.length_cons]

theorem mem_pushNAddrs {s : State} {n : Nat} {a : Addr} :
    a ∈ s.pushNAddrs n ↔ ∃ k, k < n ∧ bankAddr 0 (s.s - BitVec.ofNat 16 k) = a := by
  simp [State.pushNAddrs]

theorem pushNList_keepsBytes (bytes : List Byte) (s : State) :
    keepsBytes s (pushNList bytes s) (s.pushNAddrs bytes.length) := by
  induction bytes generalizing s with
  | nil => intro a _; rfl
  | cons b rest ih =>
    intro a ha
    have h0 : bankAddr 0 s.s ≠ a := fun h => ha (mem_pushNAddrs.2 ⟨0, by simp, by simpa using h⟩)
    have h1 : a ∉ (s.pushN8 b).pushNAddrs rest.length := by
      intro hm
      obtain ⟨k, hk, hk'⟩ := mem_pushNAddrs.1 hm
      rw [State.pushN8_s, sub_one_sub] at hk'
      exact ha (mem_pushNAddrs.2 ⟨k + 1, by simp; omega, hk'⟩)
    rw [pushNList, ih (s.pushN8 b) a h1, State.byteAt_pushN8, if_neg]
    exact fun h => h0 h.symm

theorem pushNList_pushed (bytes : List Byte) (s : State) (h : bytes.length ≤ 256) :
    pushedN s (pushNList bytes s) bytes := by
  induction bytes generalizing s with
  | nil => intro k hk; simp at hk
  | cons b rest ih =>
    intro k hk
    cases k with
    | zero =>
      have h1 : bankAddr 0 s.s ∉ (s.pushN8 b).pushNAddrs rest.length := by
        intro hm
        obtain ⟨k, hk, hk'⟩ := mem_pushNAddrs.1 hm
        rw [State.pushN8_s, sub_one_sub] at hk'
        have := congrArg BitVec.toNat (bankAddr_inj.1 hk').2
        have hs := s.s.isLt
        simp only [List.length_cons] at h
        simp [BitVec.toNat_sub] at this
        omega
      have := pushNList_keepsBytes rest (s.pushN8 b) (bankAddr 0 s.s) h1
      have e0 : s.s - BitVec.ofNat 16 0 = s.s := by simp
      rw [e0, pushNList, this, State.byteAt_pushN8]
      simp
    | succ k =>
      have := ih (s.pushN8 b) (by simp at h; omega) k (by simp at hk; omega)
      rw [State.pushN8_s, sub_one_sub] at this
      simpa [pushNList] using this

theorem pushNList_eq (bytes : List Byte) (s : State) :
    pushNList bytes s = { s with mem := (pushNList bytes s).mem, s := (pushNList bytes s).s } := by
  induction bytes generalizing s with
  | nil => rfl
  | cons b rest ih => rw [pushNList, ih (s.pushN8 b)]; rfl

theorem State.pushN16_eq (v : Word) (s : State) : s.pushN16 v = pushNList [hiByte v, loByte v] s := rfl

/-! ### Taking an event (R348) -/

/-- `Interrupt(kind)`: everything it does. -/
theorem State.interrupt_spec (k : Event) (s : State) :
    s.interrupt k =
      { s with
        mem := (pushList (frame s s.pc (pushedStatus s.e s.p k)) s).mem
        s := stackBelow s.e s.s (frameBytes s.e)
        p := setBit (setBit s.p 2 true) 3 false
        pbr := 0
        pc := (pushList (frame s s.pc (pushedStatus s.e s.p k)) s).readB0 .vector (vector s.e k)
        nmiPending := s.nmiPending && k != .nmi } := by
  unfold State.interrupt
  rw [State.pushFrame_eq]
  have h := pushList_eq (frame s s.pc (pushedStatus s.e s.p k)) s
  have hs := pushList_s (frame s s.pc (pushedStatus s.e s.p k)) s
  rw [frame_length] at hs
  rw [← hs]
  generalize pushList (frame s s.pc (pushedStatus s.e s.p k)) s = t at *
  rw [h]
  rfl

end Sys2Proof.Machine
end

