-- ==== Sys2Proof/Laws/Exec.lean ====
section
/-! SUPPORT. What executing a row of the opcode table does, once for each shape of instruction: the rows that read an
operand, store, modify, test, branch, push or write one flag all do what their operation does to the state with `PC`
past the instruction. No later proof unfolds a meaning of these rows. Each law is stated of one instruction, by cases
on its row, and checked constructor by constructor. -/

namespace Sys2Proof.Machine

/-- What an operation that reads an operand does with it; BIT tells the immediate form apart (R183). -/
def ReadOp.apply (immediate : Bool) (v : Word) (t : State) : ReadOp → State
  | .ora => t.oraA v
  | .and => t.andA v
  | .eor => t.eorA v
  | .adc => t.adc v
  | .lda => t.lda v
  | .cmp => t.cmp v
  | .sbc => t.sbc v
  | .bit => if immediate then t.bitImm v else t.bitMem v
  | .cpx => t.cpx v
  | .cpy => t.cpy v
  | .ldx => t.ldx v
  | .ldy => t.ldy v

/-- The operand is an immediate. -/
def Operand.isImm : Operand → Bool
  | .imm _ => true
  | .mem _ => false

/-- The length of an instruction with an operand. -/
def Operand.length : Operand → Nat
  | .imm v => immLength v
  | .mem f => formLength f

/-! ### Rows that read an operand -/

/-- The law of the reading rows at one instruction. -/
def ReadLaw (s : State) (i : Instr) : Prop :=
  match readRow i with
  | some (op, o) =>
    (encode i).length = o.length ∧ exec i s = .next (op.apply o.isImm (o.value s (op.width s)) (s.advance o.length))
  | none => True

theorem immBytes_length (op : Byte) (v : Imm) : (op :: immBytes v).length = immLength v := by cases v <;> rfl

theorem readLaw (s : State) (i : Instr) : ReadLaw s i := by
  cases i <;> first
    | exact trivial
    | exact ⟨rfl, rfl⟩
    | exact ⟨immBytes_length _ _, rfl⟩

/-- A row that reads an operand. -/
theorem exec_of_readRow {i : Instr} {op : ReadOp} {o : Operand} (h : readRow i = some (op, o)) (s : State) :
    exec i s = .next (op.apply o.isImm (o.value s (op.width s)) (s.advance (encode i).length)) := by
  have := readLaw s i
  rw [ReadLaw, h] at this
  rw [this.1, this.2]

/-! ### Rows that store -/

/-- The law of the storing rows at one instruction. -/
def StoreLaw (s : State) (i : Instr) : Prop :=
  match storeRow i with
  | some (op, f) =>
    (encode i).length = formLength f ∧
      exec i s = .next ((s.advance (formLength f)).writeLoc (s.loc f) (op.width s) (op.value s))
  | none => True

theorem storeLaw (s : State) (i : Instr) : StoreLaw s i := by
  cases i <;> first
    | exact trivial
    | exact ⟨rfl, rfl⟩

/-- A storing row. -/
theorem exec_of_storeRow {i : Instr} {op : StoreOp} {f : MemForm} (h : storeRow i = some (op, f)) (s : State) :
    exec i s = .next ((s.advance (encode i).length).writeLoc (s.loc f) (op.width s) (op.value s)) := by
  have := storeLaw s i
  rw [StoreLaw, h] at this
  rw [this.1, this.2]

/-! ### Rows that modify -/

/-- What a modifying operation computes, and the state with the carry it writes. -/
def ModifyOp.apply (t : State) (v : Word) : ModifyOp → Word × State
  | .asl => t.asl v
  | .lsr => t.lsr v
  | .rol => t.rol v
  | .ror => t.ror v
  | .inc => t.incr v
  | .dec => t.decr v

/-- The law of the modifying rows at one instruction. -/
def ModifyLaw (s : State) (i : Instr) : Prop :=
  match modifyRow i with
  | some (op, none) =>
    (encode i).length = 1 ∧
      exec i s = .next (((op.apply (s.advance 1) (s.areg s.wA)).2.setA s.wA
        (op.apply (s.advance 1) (s.areg s.wA)).1).setNZ s.wA (op.apply (s.advance 1) (s.areg s.wA)).1)
  | some (op, some f) =>
    (encode i).length = formLength f ∧
      exec i s = .next (((op.apply (s.advance (formLength f)) (s.operand f s.wA)).2.writeBack (s.loc f) s.wA
        (op.apply (s.advance (formLength f)) (s.operand f s.wA)).1).setNZ s.wA
        (op.apply (s.advance (formLength f)) (s.operand f s.wA)).1)
  | none => True

theorem modifyLaw (s : State) (i : Instr) : ModifyLaw s i := by
  cases i <;> first
    | exact trivial
    | exact ⟨rfl, rfl⟩

/-- A row that modifies the accumulator. -/
theorem exec_of_modifyRow_acc {i : Instr} {op : ModifyOp} (h : modifyRow i = some (op, none)) (s : State) :
    exec i s = .next (((op.apply (s.advance (encode i).length) (s.areg s.wA)).2.setA s.wA
      (op.apply (s.advance (encode i).length) (s.areg s.wA)).1).setNZ s.wA
      (op.apply (s.advance (encode i).length) (s.areg s.wA)).1) := by
  have := modifyLaw s i
  rw [ModifyLaw, h] at this
  rw [this.1, this.2]

/-- A row that modifies memory. -/
theorem exec_of_modifyRow_mem {i : Instr} {op : ModifyOp} {f : MemForm} (h : modifyRow i = some (op, some f))
    (s : State) :
    exec i s = .next (((op.apply (s.advance (encode i).length) (s.operand f s.wA)).2.writeBack (s.loc f) s.wA
      (op.apply (s.advance (encode i).length) (s.operand f s.wA)).1).setNZ s.wA
      (op.apply (s.advance (encode i).length) (s.operand f s.wA)).1) := by
  have := modifyLaw s i
  rw [ModifyLaw, h] at this
  rw [this.1, this.2]

/-! ### TRB and TSB -/

/-- The law of the testing rows at one instruction. -/
def TestLaw (s : State) (i : Instr) : Prop :=
  match testRow i with
  | some (set, f) =>
    (encode i).length = formLength f ∧
      exec i s = .next (((s.advance (formLength f)).setFlag .z (s.areg s.wA &&& s.operand f s.wA == 0)).writeBack
        (s.loc f) s.wA
        (match set with
          | true => s.operand f s.wA ||| s.areg s.wA
          | false => s.operand f s.wA &&& ~~~s.areg s.wA))
  | none => True

theorem testLaw (s : State) (i : Instr) : TestLaw s i := by
  cases i <;> first
    | exact trivial
    | exact ⟨rfl, rfl⟩

/-- A TRB or TSB row. -/
theorem exec_of_testRow {i : Instr} {set : Bool} {f : MemForm} (h : testRow i = some (set, f)) (s : State) :
    exec i s = .next (((s.advance (encode i).length).setFlag .z (s.areg s.wA &&& s.operand f s.wA == 0)).writeBack
      (s.loc f) s.wA (if set then s.operand f s.wA ||| s.areg s.wA else s.operand f s.wA &&& ~~~s.areg s.wA)) := by
  have := testLaw s i
  rw [TestLaw, h] at this
  rw [this.1, this.2]
  cases set <;> rfl

/-! ### Branches, pushes and one-flag instructions -/

/-- The law of the branching rows at one instruction. -/
def BranchLaw (s : State) (i : Instr) : Prop :=
  match branchRow i with
  | some (f, true, rel) => exec i s = s.branch (s.flag f) rel
  | some (f, false, rel) => exec i s = s.branch (!s.flag f) rel
  | none => True

theorem branchLaw (s : State) (i : Instr) : BranchLaw s i := by
  cases i <;> first
    | exact trivial
    | exact rfl

/-- A conditional branch. -/
theorem exec_of_branchRow {i : Instr} {f : Flag} {b : Bool} {rel : Byte} (h : branchRow i = some (f, b, rel))
    (s : State) : exec i s = s.branch (s.flag f == b) rel := by
  have := branchLaw s i
  rw [BranchLaw, h] at this
  cases b <;> simpa using this

/-- The law of the one-flag rows at one instruction. -/
def FlagLaw (s : State) (i : Instr) : Prop :=
  match flagRow i with
  | some (f, b) => (encode i).length = 1 ∧ exec i s = .next ((s.advance 1).setFlag f b)
  | none => True

theorem flagLaw (s : State) (i : Instr) : FlagLaw s i := by
  cases i <;> first
    | exact trivial
    | exact ⟨rfl, rfl⟩

/-- A one-flag instruction. -/
theorem exec_of_flagRow {i : Instr} {f : Flag} {b : Bool} (h : flagRow i = some (f, b)) (s : State) :
    exec i s = .next ((s.advance (encode i).length).setFlag f b) := by
  have := flagLaw s i
  rw [FlagLaw, h] at this
  rw [this.1, this.2]

theorem pushW_flag (b : Bool) (v : Word) (t : State) :
    t.pushW (if b = true then .w8 else .w16) v =
      pushList (if b = true then [loByte v] else [hiByte v, loByte v]) t := by cases b <;> rfl

/-- The law of the register pushes at one instruction. -/
def PushLaw (s : State) (i : Instr) : Prop :=
  match pushRow s i with
  | some bytes => (encode i).length = 1 ∧ exec i s = .next (pushList bytes (s.advance 1))
  | none => True

theorem pushLaw (s : State) (i : Instr) : PushLaw s i := by
  cases i <;> first
    | exact trivial
    | exact ⟨rfl, rfl⟩
    | exact ⟨rfl, congrArg Host.Outcome.next (pushW_flag _ _ _)⟩

/-- A register push. -/
theorem exec_of_pushRow {i : Instr} {bytes : List Byte} {s : State} (h : pushRow s i = some bytes) :
    exec i s = .next (pushList bytes (s.advance (encode i).length)) := by
  have := pushLaw s i
  rw [PushLaw, h] at this
  rw [this.1, this.2]

/-- The law of PEA, PEI, PER and PHD at one instruction. -/
def PushNLaw (s : State) (i : Instr) : Prop :=
  match pushNRow s i with
  | some v => exec i s = .next (pushNList [hiByte v, loByte v] (s.advance (encode i).length)).normalize
  | none => True

theorem pushNLaw (s : State) (i : Instr) : PushNLaw s i := by
  cases i <;> first
    | exact trivial
    | exact rfl

/-- PEA, PEI, PER and PHD. -/
theorem exec_of_pushNRow {i : Instr} {v : Word} {s : State} (h : pushNRow s i = some v) :
    exec i s = .next (pushNList [hiByte v, loByte v] (s.advance (encode i).length)).normalize := by
  have := pushNLaw s i
  rw [PushNLaw, h] at this
  exact this

end Sys2Proof.Machine
end

