-- ==== Sys2Proof/Laws/Effects.lean ====
section
/-! SUPPORT. What the shared operations may change, once for each: the operations on an operand, the modifying
operations, the pulls, the return from interrupt, and `Normalize` after pushes or a jump. -/

namespace Sys2Proof.Machine

/-! ### Operations on an operand -/

/-- The flags an operation on an operand writes. -/
def ReadOp.flags : ReadOp → Bool → List Flag
  | .ora, _ | .and, _ | .eor, _ | .lda, _ | .ldx, _ | .ldy, _ => [.n, .z]
  | .adc, _ | .sbc, _ => [.n, .v, .z, .c]
  | .cmp, _ | .cpx, _ | .cpy, _ => [.n, .z, .c]
  | .bit, true => [.z]
  | .bit, false => [.n, .v, .z]

/-- ADC changes the accumulator, the flags and the draw counter only. -/
theorem State.adc_eq (v : Word) (s : State) :
    s.adc v = { s with c := (s.adc v).c, p := (s.adc v).p, draws := (s.adc v).draws } := by
  unfold State.adc State.decimalOp State.setDecimal State.setInvalidDecimal
  split
  · dsimp only
    split <;> rfl
  · rfl

/-- SBC changes the accumulator, the flags and the draw counter only. -/
theorem State.sbc_eq (v : Word) (s : State) :
    s.sbc v = { s with c := (s.sbc v).c, p := (s.sbc v).p, draws := (s.sbc v).draws } := by
  unfold State.sbc State.decimalOp State.setDecimal State.setInvalidDecimal
  split
  · dsimp only
    split <;> rfl
  · rfl

/-- A comparison keeps every flag but n, z and c. -/
theorem State.keepsFlags_compare (w : Width) (reg m : Word) (s : State) :
    keepsFlags s (s.compare w reg m) [.n, .z, .c] := by
  intro f hf
  simp at hf
  unfold State.compare
  simp [State.flag_setFlag, hf]

/-- ADC keeps every flag but n, v, z and c. -/
theorem State.keepsFlags_adc (v : Word) (s : State) : keepsFlags s (s.adc v) [.n, .v, .z, .c] := by
  intro f hf
  simp at hf
  unfold State.adc State.decimalOp State.setDecimal State.setInvalidDecimal State.setSum
  split
  · dsimp only
    split
    · show State.flag (State.setNZ _ _ _) f = _
      simp [State.flag_setNZ, State.flag_setFlag, hf]
    · show State.flag (State.setFlag .c _ _) f = _
      simp [State.flag_setFlag, hf]
  · simp [State.flag_setNZ, State.flag_setFlag, hf]

/-- SBC keeps every flag but n, v, z and c. -/
theorem State.keepsFlags_sbc (v : Word) (s : State) : keepsFlags s (s.sbc v) [.n, .v, .z, .c] := by
  intro f hf
  simp at hf
  unfold State.sbc State.decimalOp State.setDecimal State.setInvalidDecimal State.setSum
  split
  · dsimp only
    split
    · show State.flag (State.setNZ _ _ _) f = _
      simp [State.flag_setNZ, State.flag_setFlag, hf]
    · show State.flag (State.setFlag .c _ _) f = _
      simp [State.flag_setFlag, hf]
  · simp [State.flag_setNZ, State.flag_setFlag, hf]

/-- An operation on an operand changes only the accumulator, the index registers, the flags and the draw counter. -/
theorem ReadOp.apply_eq (op : ReadOp) (b : Bool) (v : Word) (s : State) :
    op.apply b v s =
      { s with
        c := (op.apply b v s).c
        x := (op.apply b v s).x
        y := (op.apply b v s).y
        p := (op.apply b v s).p
        draws := (op.apply b v s).draws } := by
  cases op <;> simp only [ReadOp.apply]
  case adc => rw [State.adc_eq]
  case sbc => rw [State.sbc_eq]
  case bit => cases b <;> rfl
  all_goals rfl

/-- An operation on an operand keeps every flag that is not its own. -/
theorem ReadOp.keepsFlags_apply (op : ReadOp) (b : Bool) (v : Word) (s : State) :
    keepsFlags s (op.apply b v s) (op.flags b) := by
  intro f hf
  have nz : ∀ (w : Width) (v : Word) (t : State), t.p = s.p → f ∉ [Flag.n, .z] → (t.setNZ w v).flag f = s.flag f := by
    intro w v t ht h
    rw [State.keepsFlags_setNZ w v t f h]
    simp only [State.flag, ht]
  cases op <;> simp only [ReadOp.flags, ReadOp.apply] at hf ⊢
  case adc => exact State.keepsFlags_adc _ _ _ hf
  case sbc => exact State.keepsFlags_sbc _ _ _ hf
  case cmp => exact State.keepsFlags_compare _ _ _ _ _ hf
  case cpx => exact State.keepsFlags_compare _ _ _ _ _ hf
  case cpy => exact State.keepsFlags_compare _ _ _ _ _ hf
  case bit =>
    cases b <;> simp at hf ⊢
    · simp [State.bitMem, State.flag_setFlag, hf]
    · simp [State.bitImm, State.flag_setFlag, hf]
  all_goals exact nz _ _ _ rfl hf

/-! ### Modifying operations -/

/-- The flags a modifying operation writes, n and z included. -/
def ModifyOp.flags : ModifyOp → List Flag
  | .inc | .dec => [.n, .z]
  | .asl | .lsr | .rol | .ror => [.n, .z, .c]

/-- A modifying operation itself writes at most the carry. -/
theorem ModifyOp.apply_eq (op : ModifyOp) (v : Word) (t : State) :
    (op.apply t v).2 = { t with p := (op.apply t v).2.p } := by
  cases op <;> rfl

theorem ModifyOp.keepsFlags_apply (op : ModifyOp) (v : Word) (t : State) :
    keepsFlags t (op.apply t v).2 op.flags := by
  intro f h
  cases op <;> simp [ModifyOp.flags] at h <;>
    simp [ModifyOp.apply, State.asl, State.lsr, State.rol, State.ror, State.incr, State.decr, State.flag_setFlag, h]

/-! ### The stack -/

/-- A pull of a width: the value above `S`, and `S` moved. -/
theorem State.pullW_eq (w : Width) (s : State) :
    s.pullW w = (s.pulled w, { s with s := stackAbove s.e s.s (widthBytes w) }) := by
  cases w <;> rfl

/-- In emulation mode pushes and pulls keep `SH`. -/
theorem hiByte_stackBelow (sp : Word) (k : Nat) : hiByte (stackBelow true sp k) = hiByte sp := by
  rw [stackBelow_emulation]
  simp

theorem hiByte_stackAbove (sp : Word) (k : Nat) : hiByte (stackAbove true sp k) = hiByte sp := by
  rw [stackAbove_emulation]
  simp

/-- A list of pushes keeps memory's canonical form. -/
theorem wf_pushList (bytes : List Byte) {s : State} (h : s.mem.wf = true) : (pushList bytes s).mem.wf = true := by
  induction bytes generalizing s with
  | nil => exact h
  | cons b rest ih => exact ih (State.wf_push8 h)

theorem wf_pushNList (bytes : List Byte) {s : State} (h : s.mem.wf = true) : (pushNList bytes s).mem.wf = true := by
  induction bytes generalizing s with
  | nil => exact h
  | cons b rest ih => exact ih (State.wf_pushN8 h)

/-! ### `Normalize` where the mode invariants held before -/

/-- After changes to memory, `S`, `PBR`, `PC` and `D` only, `Normalize` forces `SH` in emulation mode and does nothing
else. -/
theorem State.normalize_of_change {s : State} (hs : s.modeOk) (t : State)
    (h : t = { s with mem := t.mem, s := t.s, pbr := t.pbr, pc := t.pc, d := t.d }) :
    t.normalize = { t with s := normalS s.e t.s } := by
  have hn := State.normalize_eq (s := t) (by rw [h]; exact fun he => ⟨(hs.1 he).1, (hs.1 he).2.1⟩) (by rw [h]; exact hs.2)
  have he : t.e = s.e := by rw [h]
  rw [hn, he]

/-- Under the mode invariants, forcing `SH` keeps `S`. -/
theorem State.normalS_of_modeOk {s : State} (hs : s.modeOk) : normalS s.e s.s = s.s := by
  unfold normalS
  split
  · rename_i he
    rw [← (hs.1 he).2.2]
    simp
  · rfl

/-- The mode invariants survive a change that keeps E, m and x, and keeps `SH`, `XH` and `YH` as they must be. -/
theorem State.modeOk_of_same {s t : State} (h : s.modeOk) (hm : t.flag .m = s.flag .m) (hx : t.flag .x = s.flag .x)
    (he : t.e = s.e) (hs : s.e = true → hiByte t.s = 0x01)
    (hi : s.flag .x = true → hiByte t.x = 0 ∧ hiByte t.y = 0) : t.modeOk := by
  refine ⟨fun ht => ?_, fun ht => ?_⟩
  · rw [he] at ht
    rw [hm, hx]
    exact ⟨(h.1 ht).1, (h.1 ht).2.1, hs ht⟩
  · rw [hx] at ht
    exact hi ht

/-! ### Return from interrupt (R233, R350) -/

/-- RTI's first pull, with `P` written and normalised. -/
def State.pulledStatus (s : State) : State :=
  State.setP (s.readByte .pull (s.pullAddr 1)) { s with s := stackUp s.e s.s }

/-- The return from interrupt where the mode invariants hold: everything it does. -/
theorem State.returnFromInterrupt_spec {s : State} (hs : s.modeOk) :
    s.returnFromInterrupt =
      { s.pulledStatus with
        s := stackAbove s.e s.s (frameBytes s.e)
        pc := s.read16 .pull (s.pullAddr 2) (s.pullAddr 3)
        pbr := if s.e then s.pbr else s.readByte .pull (s.pullAddr 4) } := by
  have hS : s.pulledStatus.s = stackUp s.e s.s := by
    show (if s.e then word16 (loByte (stackUp s.e s.s)) 0x01 else stackUp s.e s.s) = _
    split
    · rename_i he
      rw [he]
      simp only [stackUp, if_true, loByte_word16, (hs.1 he).2.2]
    · rfl
  have e2 : s.pulledStatus.pull16.2.jump s.pulledStatus.pull16.1 =
      { s.pulledStatus with s := stackAbove s.e s.s 3, pc := s.read16 .pull (s.pullAddr 2) (s.pullAddr 3) } := by
    unfold State.pull16 State.pull8
    simp only [hS]
    rfl
  show (if (s.pulledStatus.pull16.2.jump s.pulledStatus.pull16.1).e = true
    then s.pulledStatus.pull16.2.jump s.pulledStatus.pull16.1
    else (s.pulledStatus.pull16.2.jump s.pulledStatus.pull16.1).pull8.2.setPBR
      (s.pulledStatus.pull16.2.jump s.pulledStatus.pull16.1).pull8.1) = _
  rw [e2]
  show (if s.e = true then _ else _) = _
  unfold frameBytes
  cases he : s.e
  · simp only [Bool.false_eq_true, if_false]
    rw [← he]
    rfl
  · simp only [if_true]
    rfl

/-! ### Reset (R380) -/

/-- The flags after a RESET event: m, x and i are 1, d is 0, the others are draws. -/
theorem resetP_flags (k : Nat) :
    (resetP k).getLsbD 5 = true ∧ (resetP k).getLsbD 4 = true ∧ (resetP k).getLsbD 3 = false ∧
      (resetP k).getLsbD 2 = true := by
  unfold resetP
  refine ⟨?_, ?_, ?_, ?_⟩ <;>
    (rw [getLsbD_setBit _ _ _ _ (by omega), getLsbD_setBit _ _ _ _ (by omega), getLsbD_setBit _ _ _ _ (by omega),
      getLsbD_setBit _ _ _ _ (by omega)]; rfl)

/-- A reset puts the mode invariants in force. -/
theorem State.modeOk_resetEvent (s : State) : s.resetEvent.modeOk :=
  ⟨fun _ => ⟨(resetP_flags s.draws).1, (resetP_flags s.draws).2.1, hiByte_word16 _ _⟩,
    fun _ => ⟨hiByte_word16 _ _, hiByte_word16 _ _⟩⟩

/-! ### The start of a run (R380, D8) -/

@[simp] theorem State.start_mem (m : Memory) (r : List (Nat × Nat)) (l : List HostInput) :
    (State.start m r l).mem = m := rfl

@[simp] theorem State.start_ioRegion (m : Memory) (r : List (Nat × Nat)) (l : List HostInput) :
    (State.start m r l).ioRegion = r := rfl

@[simp] theorem State.start_inputs (m : Memory) (r : List (Nat × Nat)) (l : List HostInput) :
    (State.start m r l).inputs = l := rfl

theorem State.start_pc {m : Memory} {r : List (Nat × Nat)} {l : List HostInput}
    (h : (State.start m r l).isDevice 0x00FFFC = false) (h' : (State.start m r l).isDevice 0x00FFFD = false) :
    (State.start m r l).pc = word16 (m.read 0xFFFC) (m.read 0xFFFD) := by
  have e : ∀ a, State.isDevice { State.reset with mem := m, ioRegion := r, inputs := l } a =
      (State.start m r l).isDevice a := fun _ => rfl
  rw [← e] at h h'
  show word16 (State.readByte _ .vector 0x00FFFC) (State.readByte _ .vector 0x00FFFD) = _
  rw [State.readByte_of_memory h, State.readByte_of_memory h']
  rfl

theorem State.modeOk_start (m : Memory) (r : List (Nat × Nat)) (l : List HostInput) : (State.start m r l).modeOk :=
  State.modeOk_resetEvent _

end Sys2Proof.Machine
end

