-- ==== Sys2Proof/Laws/PerInstr.lean ====
section
/-! SUPPORT. Laws stated of every instruction as syntax, one lemma per constructor. -/

namespace Sys2Proof.Laws.EncodedLength

/-- An encoded instruction is 1 to 4 bytes long (R91). -/
def Statement (i : Instr) : Prop := 1 ≤ (encode i).length ∧ (encode i).length ≤ 4

/-- The bytes of an immediate are one or two. -/
theorem immBytes_length (i : Imm) : 1 ≤ (immBytes i).length ∧ (immBytes i).length ≤ 2 := by
  cases i <;> simp [immBytes, wordBytes]

/-- An opcode byte and an immediate are at most four bytes. -/
theorem of_immBytes (op : Byte) (i : Imm) : 1 ≤ (op :: immBytes i).length ∧ (op :: immBytes i).length ≤ 4 := by
  have h := immBytes_length i
  simp only [List.length_cons]
  omega

theorem brk (sig : Byte) : Statement (.brk sig) := ⟨Nat.le_add_left _ _, Nat.le_of_ble_eq_true rfl⟩
theorem oraDpXInd (dp : Byte) : Statement (.oraDpXInd dp) := ⟨Nat.le_add_left _ _, Nat.le_of_ble_eq_true rfl⟩
theorem cop (sig : Byte) : Statement (.cop sig) := ⟨Nat.le_add_left _ _, Nat.le_of_ble_eq_true rfl⟩
theorem oraSr (ofs : Byte) : Statement (.oraSr ofs) := ⟨Nat.le_add_left _ _, Nat.le_of_ble_eq_true rfl⟩
theorem tsbDp (dp : Byte) : Statement (.tsbDp dp) := ⟨Nat.le_add_left _ _, Nat.le_of_ble_eq_true rfl⟩
theorem oraDp (dp : Byte) : Statement (.oraDp dp) := ⟨Nat.le_add_left _ _, Nat.le_of_ble_eq_true rfl⟩
theorem aslDp (dp : Byte) : Statement (.aslDp dp) := ⟨Nat.le_add_left _ _, Nat.le_of_ble_eq_true rfl⟩
theorem oraDpIndL (dp : Byte) : Statement (.oraDpIndL dp) := ⟨Nat.le_add_left _ _, Nat.le_of_ble_eq_true rfl⟩
theorem oraImm (imm : Imm) : Statement (.oraImm imm) := of_immBytes _ imm
theorem tsbAbs (abs : Word) : Statement (.tsbAbs abs) := ⟨Nat.le_add_left _ _, Nat.le_of_ble_eq_true rfl⟩
theorem oraAbs (abs : Word) : Statement (.oraAbs abs) := ⟨Nat.le_add_left _ _, Nat.le_of_ble_eq_true rfl⟩
theorem aslAbs (abs : Word) : Statement (.aslAbs abs) := ⟨Nat.le_add_left _ _, Nat.le_of_ble_eq_true rfl⟩
theorem oraLong (long : Addr) : Statement (.oraLong long) := ⟨Nat.le_add_left _ _, Nat.le_of_ble_eq_true rfl⟩
theorem bpl (rel : Byte) : Statement (.bpl rel) := ⟨Nat.le_add_left _ _, Nat.le_of_ble_eq_true rfl⟩
theorem oraDpIndY (dp : Byte) : Statement (.oraDpIndY dp) := ⟨Nat.le_add_left _ _, Nat.le_of_ble_eq_true rfl⟩
theorem oraDpInd (dp : Byte) : Statement (.oraDpInd dp) := ⟨Nat.le_add_left _ _, Nat.le_of_ble_eq_true rfl⟩
theorem oraSrIndY (ofs : Byte) : Statement (.oraSrIndY ofs) := ⟨Nat.le_add_left _ _, Nat.le_of_ble_eq_true rfl⟩
theorem trbDp (dp : Byte) : Statement (.trbDp dp) := ⟨Nat.le_add_left _ _, Nat.le_of_ble_eq_true rfl⟩
theorem oraDpX (dp : Byte) : Statement (.oraDpX dp) := ⟨Nat.le_add_left _ _, Nat.le_of_ble_eq_true rfl⟩
theorem aslDpX (dp : Byte) : Statement (.aslDpX dp) := ⟨Nat.le_add_left _ _, Nat.le_of_ble_eq_true rfl⟩
theorem oraDpIndLY (dp : Byte) : Statement (.oraDpIndLY dp) := ⟨Nat.le_add_left _ _, Nat.le_of_ble_eq_true rfl⟩
theorem oraAbsY (abs : Word) : Statement (.oraAbsY abs) := ⟨Nat.le_add_left _ _, Nat.le_of_ble_eq_true rfl⟩
theorem trbAbs (abs : Word) : Statement (.trbAbs abs) := ⟨Nat.le_add_left _ _, Nat.le_of_ble_eq_true rfl⟩
theorem oraAbsX (abs : Word) : Statement (.oraAbsX abs) := ⟨Nat.le_add_left _ _, Nat.le_of_ble_eq_true rfl⟩
theorem aslAbsX (abs : Word) : Statement (.aslAbsX abs) := ⟨Nat.le_add_left _ _, Nat.le_of_ble_eq_true rfl⟩
theorem oraLongX (long : Addr) : Statement (.oraLongX long) := ⟨Nat.le_add_left _ _, Nat.le_of_ble_eq_true rfl⟩
theorem jsrAbs (abs : Word) : Statement (.jsrAbs abs) := ⟨Nat.le_add_left _ _, Nat.le_of_ble_eq_true rfl⟩
theorem andDpXInd (dp : Byte) : Statement (.andDpXInd dp) := ⟨Nat.le_add_left _ _, Nat.le_of_ble_eq_true rfl⟩
theorem jsl (long : Addr) : Statement (.jsl long) := ⟨Nat.le_add_left _ _, Nat.le_of_ble_eq_true rfl⟩
theorem andSr (ofs : Byte) : Statement (.andSr ofs) := ⟨Nat.le_add_left _ _, Nat.le_of_ble_eq_true rfl⟩
theorem bitDp (dp : Byte) : Statement (.bitDp dp) := ⟨Nat.le_add_left _ _, Nat.le_of_ble_eq_true rfl⟩
theorem andDp (dp : Byte) : Statement (.andDp dp) := ⟨Nat.le_add_left _ _, Nat.le_of_ble_eq_true rfl⟩
theorem rolDp (dp : Byte) : Statement (.rolDp dp) := ⟨Nat.le_add_left _ _, Nat.le_of_ble_eq_true rfl⟩
theorem andDpIndL (dp : Byte) : Statement (.andDpIndL dp) := ⟨Nat.le_add_left _ _, Nat.le_of_ble_eq_true rfl⟩
theorem andImm (imm : Imm) : Statement (.andImm imm) := of_immBytes _ imm
theorem bitAbs (abs : Word) : Statement (.bitAbs abs) := ⟨Nat.le_add_left _ _, Nat.le_of_ble_eq_true rfl⟩
theorem andAbs (abs : Word) : Statement (.andAbs abs) := ⟨Nat.le_add_left _ _, Nat.le_of_ble_eq_true rfl⟩
theorem rolAbs (abs : Word) : Statement (.rolAbs abs) := ⟨Nat.le_add_left _ _, Nat.le_of_ble_eq_true rfl⟩
theorem andLong (long : Addr) : Statement (.andLong long) := ⟨Nat.le_add_left _ _, Nat.le_of_ble_eq_true rfl⟩
theorem bmi (rel : Byte) : Statement (.bmi rel) := ⟨Nat.le_add_left _ _, Nat.le_of_ble_eq_true rfl⟩
theorem andDpIndY (dp : Byte) : Statement (.andDpIndY dp) := ⟨Nat.le_add_left _ _, Nat.le_of_ble_eq_true rfl⟩
theorem andDpInd (dp : Byte) : Statement (.andDpInd dp) := ⟨Nat.le_add_left _ _, Nat.le_of_ble_eq_true rfl⟩
theorem andSrIndY (ofs : Byte) : Statement (.andSrIndY ofs) := ⟨Nat.le_add_left _ _, Nat.le_of_ble_eq_true rfl⟩
theorem bitDpX (dp : Byte) : Statement (.bitDpX dp) := ⟨Nat.le_add_left _ _, Nat.le_of_ble_eq_true rfl⟩
theorem andDpX (dp : Byte) : Statement (.andDpX dp) := ⟨Nat.le_add_left _ _, Nat.le_of_ble_eq_true rfl⟩
theorem rolDpX (dp : Byte) : Statement (.rolDpX dp) := ⟨Nat.le_add_left _ _, Nat.le_of_ble_eq_true rfl⟩
theorem andDpIndLY (dp : Byte) : Statement (.andDpIndLY dp) := ⟨Nat.le_add_left _ _, Nat.le_of_ble_eq_true rfl⟩
theorem andAbsY (abs : Word) : Statement (.andAbsY abs) := ⟨Nat.le_add_left _ _, Nat.le_of_ble_eq_true rfl⟩
theorem bitAbsX (abs : Word) : Statement (.bitAbsX abs) := ⟨Nat.le_add_left _ _, Nat.le_of_ble_eq_true rfl⟩
theorem andAbsX (abs : Word) : Statement (.andAbsX abs) := ⟨Nat.le_add_left _ _, Nat.le_of_ble_eq_true rfl⟩
theorem rolAbsX (abs : Word) : Statement (.rolAbsX abs) := ⟨Nat.le_add_left _ _, Nat.le_of_ble_eq_true rfl⟩
theorem andLongX (long : Addr) : Statement (.andLongX long) := ⟨Nat.le_add_left _ _, Nat.le_of_ble_eq_true rfl⟩
theorem eorDpXInd (dp : Byte) : Statement (.eorDpXInd dp) := ⟨Nat.le_add_left _ _, Nat.le_of_ble_eq_true rfl⟩
theorem wdm (sig : Byte) : Statement (.wdm sig) := ⟨Nat.le_add_left _ _, Nat.le_of_ble_eq_true rfl⟩
theorem eorSr (ofs : Byte) : Statement (.eorSr ofs) := ⟨Nat.le_add_left _ _, Nat.le_of_ble_eq_true rfl⟩
theorem mvp (dstbank : Byte) (srcbank : Byte) : Statement (.mvp dstbank srcbank) := ⟨Nat.le_add_left _ _, Nat.le_of_ble_eq_true rfl⟩
theorem eorDp (dp : Byte) : Statement (.eorDp dp) := ⟨Nat.le_add_left _ _, Nat.le_of_ble_eq_true rfl⟩
theorem lsrDp (dp : Byte) : Statement (.lsrDp dp) := ⟨Nat.le_add_left _ _, Nat.le_of_ble_eq_true rfl⟩
theorem eorDpIndL (dp : Byte) : Statement (.eorDpIndL dp) := ⟨Nat.le_add_left _ _, Nat.le_of_ble_eq_true rfl⟩
theorem eorImm (imm : Imm) : Statement (.eorImm imm) := of_immBytes _ imm
theorem jmpAbs (abs : Word) : Statement (.jmpAbs abs) := ⟨Nat.le_add_left _ _, Nat.le_of_ble_eq_true rfl⟩
theorem eorAbs (abs : Word) : Statement (.eorAbs abs) := ⟨Nat.le_add_left _ _, Nat.le_of_ble_eq_true rfl⟩
theorem lsrAbs (abs : Word) : Statement (.lsrAbs abs) := ⟨Nat.le_add_left _ _, Nat.le_of_ble_eq_true rfl⟩
theorem eorLong (long : Addr) : Statement (.eorLong long) := ⟨Nat.le_add_left _ _, Nat.le_of_ble_eq_true rfl⟩
theorem bvc (rel : Byte) : Statement (.bvc rel) := ⟨Nat.le_add_left _ _, Nat.le_of_ble_eq_true rfl⟩
theorem eorDpIndY (dp : Byte) : Statement (.eorDpIndY dp) := ⟨Nat.le_add_left _ _, Nat.le_of_ble_eq_true rfl⟩
theorem eorDpInd (dp : Byte) : Statement (.eorDpInd dp) := ⟨Nat.le_add_left _ _, Nat.le_of_ble_eq_true rfl⟩
theorem eorSrIndY (ofs : Byte) : Statement (.eorSrIndY ofs) := ⟨Nat.le_add_left _ _, Nat.le_of_ble_eq_true rfl⟩
theorem mvn (dstbank : Byte) (srcbank : Byte) : Statement (.mvn dstbank srcbank) := ⟨Nat.le_add_left _ _, Nat.le_of_ble_eq_true rfl⟩
theorem eorDpX (dp : Byte) : Statement (.eorDpX dp) := ⟨Nat.le_add_left _ _, Nat.le_of_ble_eq_true rfl⟩
theorem lsrDpX (dp : Byte) : Statement (.lsrDpX dp) := ⟨Nat.le_add_left _ _, Nat.le_of_ble_eq_true rfl⟩
theorem eorDpIndLY (dp : Byte) : Statement (.eorDpIndLY dp) := ⟨Nat.le_add_left _ _, Nat.le_of_ble_eq_true rfl⟩
theorem eorAbsY (abs : Word) : Statement (.eorAbsY abs) := ⟨Nat.le_add_left _ _, Nat.le_of_ble_eq_true rfl⟩
theorem jmlLong (long : Addr) : Statement (.jmlLong long) := ⟨Nat.le_add_left _ _, Nat.le_of_ble_eq_true rfl⟩
theorem eorAbsX (abs : Word) : Statement (.eorAbsX abs) := ⟨Nat.le_add_left _ _, Nat.le_of_ble_eq_true rfl⟩
theorem lsrAbsX (abs : Word) : Statement (.lsrAbsX abs) := ⟨Nat.le_add_left _ _, Nat.le_of_ble_eq_true rfl⟩
theorem eorLongX (long : Addr) : Statement (.eorLongX long) := ⟨Nat.le_add_left _ _, Nat.le_of_ble_eq_true rfl⟩
theorem adcDpXInd (dp : Byte) : Statement (.adcDpXInd dp) := ⟨Nat.le_add_left _ _, Nat.le_of_ble_eq_true rfl⟩
theorem per (rel : Word) : Statement (.per rel) := ⟨Nat.le_add_left _ _, Nat.le_of_ble_eq_true rfl⟩
theorem adcSr (ofs : Byte) : Statement (.adcSr ofs) := ⟨Nat.le_add_left _ _, Nat.le_of_ble_eq_true rfl⟩
theorem stzDp (dp : Byte) : Statement (.stzDp dp) := ⟨Nat.le_add_left _ _, Nat.le_of_ble_eq_true rfl⟩
theorem adcDp (dp : Byte) : Statement (.adcDp dp) := ⟨Nat.le_add_left _ _, Nat.le_of_ble_eq_true rfl⟩
theorem rorDp (dp : Byte) : Statement (.rorDp dp) := ⟨Nat.le_add_left _ _, Nat.le_of_ble_eq_true rfl⟩
theorem adcDpIndL (dp : Byte) : Statement (.adcDpIndL dp) := ⟨Nat.le_add_left _ _, Nat.le_of_ble_eq_true rfl⟩
theorem adcImm (imm : Imm) : Statement (.adcImm imm) := of_immBytes _ imm
theorem jmpAbsInd (abs : Word) : Statement (.jmpAbsInd abs) := ⟨Nat.le_add_left _ _, Nat.le_of_ble_eq_true rfl⟩
theorem adcAbs (abs : Word) : Statement (.adcAbs abs) := ⟨Nat.le_add_left _ _, Nat.le_of_ble_eq_true rfl⟩
theorem rorAbs (abs : Word) : Statement (.rorAbs abs) := ⟨Nat.le_add_left _ _, Nat.le_of_ble_eq_true rfl⟩
theorem adcLong (long : Addr) : Statement (.adcLong long) := ⟨Nat.le_add_left _ _, Nat.le_of_ble_eq_true rfl⟩
theorem bvs (rel : Byte) : Statement (.bvs rel) := ⟨Nat.le_add_left _ _, Nat.le_of_ble_eq_true rfl⟩
theorem adcDpIndY (dp : Byte) : Statement (.adcDpIndY dp) := ⟨Nat.le_add_left _ _, Nat.le_of_ble_eq_true rfl⟩
theorem adcDpInd (dp : Byte) : Statement (.adcDpInd dp) := ⟨Nat.le_add_left _ _, Nat.le_of_ble_eq_true rfl⟩
theorem adcSrIndY (ofs : Byte) : Statement (.adcSrIndY ofs) := ⟨Nat.le_add_left _ _, Nat.le_of_ble_eq_true rfl⟩
theorem stzDpX (dp : Byte) : Statement (.stzDpX dp) := ⟨Nat.le_add_left _ _, Nat.le_of_ble_eq_true rfl⟩
theorem adcDpX (dp : Byte) : Statement (.adcDpX dp) := ⟨Nat.le_add_left _ _, Nat.le_of_ble_eq_true rfl⟩
theorem rorDpX (dp : Byte) : Statement (.rorDpX dp) := ⟨Nat.le_add_left _ _, Nat.le_of_ble_eq_true rfl⟩
theorem adcDpIndLY (dp : Byte) : Statement (.adcDpIndLY dp) := ⟨Nat.le_add_left _ _, Nat.le_of_ble_eq_true rfl⟩
theorem adcAbsY (abs : Word) : Statement (.adcAbsY abs) := ⟨Nat.le_add_left _ _, Nat.le_of_ble_eq_true rfl⟩
theorem jmpAbsXInd (abs : Word) : Statement (.jmpAbsXInd abs) := ⟨Nat.le_add_left _ _, Nat.le_of_ble_eq_true rfl⟩
theorem adcAbsX (abs : Word) : Statement (.adcAbsX abs) := ⟨Nat.le_add_left _ _, Nat.le_of_ble_eq_true rfl⟩
theorem rorAbsX (abs : Word) : Statement (.rorAbsX abs) := ⟨Nat.le_add_left _ _, Nat.le_of_ble_eq_true rfl⟩
theorem adcLongX (long : Addr) : Statement (.adcLongX long) := ⟨Nat.le_add_left _ _, Nat.le_of_ble_eq_true rfl⟩
theorem bra (rel : Byte) : Statement (.bra rel) := ⟨Nat.le_add_left _ _, Nat.le_of_ble_eq_true rfl⟩
theorem staDpXInd (dp : Byte) : Statement (.staDpXInd dp) := ⟨Nat.le_add_left _ _, Nat.le_of_ble_eq_true rfl⟩
theorem brl (rel : Word) : Statement (.brl rel) := ⟨Nat.le_add_left _ _, Nat.le_of_ble_eq_true rfl⟩
theorem staSr (ofs : Byte) : Statement (.staSr ofs) := ⟨Nat.le_add_left _ _, Nat.le_of_ble_eq_true rfl⟩
theorem styDp (dp : Byte) : Statement (.styDp dp) := ⟨Nat.le_add_left _ _, Nat.le_of_ble_eq_true rfl⟩
theorem staDp (dp : Byte) : Statement (.staDp dp) := ⟨Nat.le_add_left _ _, Nat.le_of_ble_eq_true rfl⟩
theorem stxDp (dp : Byte) : Statement (.stxDp dp) := ⟨Nat.le_add_left _ _, Nat.le_of_ble_eq_true rfl⟩
theorem staDpIndL (dp : Byte) : Statement (.staDpIndL dp) := ⟨Nat.le_add_left _ _, Nat.le_of_ble_eq_true rfl⟩
theorem bitImm (imm : Imm) : Statement (.bitImm imm) := of_immBytes _ imm
theorem styAbs (abs : Word) : Statement (.styAbs abs) := ⟨Nat.le_add_left _ _, Nat.le_of_ble_eq_true rfl⟩
theorem staAbs (abs : Word) : Statement (.staAbs abs) := ⟨Nat.le_add_left _ _, Nat.le_of_ble_eq_true rfl⟩
theorem stxAbs (abs : Word) : Statement (.stxAbs abs) := ⟨Nat.le_add_left _ _, Nat.le_of_ble_eq_true rfl⟩
theorem staLong (long : Addr) : Statement (.staLong long) := ⟨Nat.le_add_left _ _, Nat.le_of_ble_eq_true rfl⟩
theorem bcc (rel : Byte) : Statement (.bcc rel) := ⟨Nat.le_add_left _ _, Nat.le_of_ble_eq_true rfl⟩
theorem staDpIndY (dp : Byte) : Statement (.staDpIndY dp) := ⟨Nat.le_add_left _ _, Nat.le_of_ble_eq_true rfl⟩
theorem staDpInd (dp : Byte) : Statement (.staDpInd dp) := ⟨Nat.le_add_left _ _, Nat.le_of_ble_eq_true rfl⟩
theorem staSrIndY (ofs : Byte) : Statement (.staSrIndY ofs) := ⟨Nat.le_add_left _ _, Nat.le_of_ble_eq_true rfl⟩
theorem styDpX (dp : Byte) : Statement (.styDpX dp) := ⟨Nat.le_add_left _ _, Nat.le_of_ble_eq_true rfl⟩
theorem staDpX (dp : Byte) : Statement (.staDpX dp) := ⟨Nat.le_add_left _ _, Nat.le_of_ble_eq_true rfl⟩
theorem stxDpY (dp : Byte) : Statement (.stxDpY dp) := ⟨Nat.le_add_left _ _, Nat.le_of_ble_eq_true rfl⟩
theorem staDpIndLY (dp : Byte) : Statement (.staDpIndLY dp) := ⟨Nat.le_add_left _ _, Nat.le_of_ble_eq_true rfl⟩
theorem staAbsY (abs : Word) : Statement (.staAbsY abs) := ⟨Nat.le_add_left _ _, Nat.le_of_ble_eq_true rfl⟩
theorem stzAbs (abs : Word) : Statement (.stzAbs abs) := ⟨Nat.le_add_left _ _, Nat.le_of_ble_eq_true rfl⟩
theorem staAbsX (abs : Word) : Statement (.staAbsX abs) := ⟨Nat.le_add_left _ _, Nat.le_of_ble_eq_true rfl⟩
theorem stzAbsX (abs : Word) : Statement (.stzAbsX abs) := ⟨Nat.le_add_left _ _, Nat.le_of_ble_eq_true rfl⟩
theorem staLongX (long : Addr) : Statement (.staLongX long) := ⟨Nat.le_add_left _ _, Nat.le_of_ble_eq_true rfl⟩
theorem ldyImm (imm : Imm) : Statement (.ldyImm imm) := of_immBytes _ imm
theorem ldaDpXInd (dp : Byte) : Statement (.ldaDpXInd dp) := ⟨Nat.le_add_left _ _, Nat.le_of_ble_eq_true rfl⟩
theorem ldxImm (imm : Imm) : Statement (.ldxImm imm) := of_immBytes _ imm
theorem ldaSr (ofs : Byte) : Statement (.ldaSr ofs) := ⟨Nat.le_add_left _ _, Nat.le_of_ble_eq_true rfl⟩
theorem ldyDp (dp : Byte) : Statement (.ldyDp dp) := ⟨Nat.le_add_left _ _, Nat.le_of_ble_eq_true rfl⟩
theorem ldaDp (dp : Byte) : Statement (.ldaDp dp) := ⟨Nat.le_add_left _ _, Nat.le_of_ble_eq_true rfl⟩
theorem ldxDp (dp : Byte) : Statement (.ldxDp dp) := ⟨Nat.le_add_left _ _, Nat.le_of_ble_eq_true rfl⟩
theorem ldaDpIndL (dp : Byte) : Statement (.ldaDpIndL dp) := ⟨Nat.le_add_left _ _, Nat.le_of_ble_eq_true rfl⟩
theorem ldaImm (imm : Imm) : Statement (.ldaImm imm) := of_immBytes _ imm
theorem ldyAbs (abs : Word) : Statement (.ldyAbs abs) := ⟨Nat.le_add_left _ _, Nat.le_of_ble_eq_true rfl⟩
theorem ldaAbs (abs : Word) : Statement (.ldaAbs abs) := ⟨Nat.le_add_left _ _, Nat.le_of_ble_eq_true rfl⟩
theorem ldxAbs (abs : Word) : Statement (.ldxAbs abs) := ⟨Nat.le_add_left _ _, Nat.le_of_ble_eq_true rfl⟩
theorem ldaLong (long : Addr) : Statement (.ldaLong long) := ⟨Nat.le_add_left _ _, Nat.le_of_ble_eq_true rfl⟩
theorem bcs (rel : Byte) : Statement (.bcs rel) := ⟨Nat.le_add_left _ _, Nat.le_of_ble_eq_true rfl⟩
theorem ldaDpIndY (dp : Byte) : Statement (.ldaDpIndY dp) := ⟨Nat.le_add_left _ _, Nat.le_of_ble_eq_true rfl⟩
theorem ldaDpInd (dp : Byte) : Statement (.ldaDpInd dp) := ⟨Nat.le_add_left _ _, Nat.le_of_ble_eq_true rfl⟩
theorem ldaSrIndY (ofs : Byte) : Statement (.ldaSrIndY ofs) := ⟨Nat.le_add_left _ _, Nat.le_of_ble_eq_true rfl⟩
theorem ldyDpX (dp : Byte) : Statement (.ldyDpX dp) := ⟨Nat.le_add_left _ _, Nat.le_of_ble_eq_true rfl⟩
theorem ldaDpX (dp : Byte) : Statement (.ldaDpX dp) := ⟨Nat.le_add_left _ _, Nat.le_of_ble_eq_true rfl⟩
theorem ldxDpY (dp : Byte) : Statement (.ldxDpY dp) := ⟨Nat.le_add_left _ _, Nat.le_of_ble_eq_true rfl⟩
theorem ldaDpIndLY (dp : Byte) : Statement (.ldaDpIndLY dp) := ⟨Nat.le_add_left _ _, Nat.le_of_ble_eq_true rfl⟩
theorem ldaAbsY (abs : Word) : Statement (.ldaAbsY abs) := ⟨Nat.le_add_left _ _, Nat.le_of_ble_eq_true rfl⟩
theorem ldyAbsX (abs : Word) : Statement (.ldyAbsX abs) := ⟨Nat.le_add_left _ _, Nat.le_of_ble_eq_true rfl⟩
theorem ldaAbsX (abs : Word) : Statement (.ldaAbsX abs) := ⟨Nat.le_add_left _ _, Nat.le_of_ble_eq_true rfl⟩
theorem ldxAbsY (abs : Word) : Statement (.ldxAbsY abs) := ⟨Nat.le_add_left _ _, Nat.le_of_ble_eq_true rfl⟩
theorem ldaLongX (long : Addr) : Statement (.ldaLongX long) := ⟨Nat.le_add_left _ _, Nat.le_of_ble_eq_true rfl⟩
theorem cpyImm (imm : Imm) : Statement (.cpyImm imm) := of_immBytes _ imm
theorem cmpDpXInd (dp : Byte) : Statement (.cmpDpXInd dp) := ⟨Nat.le_add_left _ _, Nat.le_of_ble_eq_true rfl⟩
theorem rep (imm : Byte) : Statement (.rep imm) := ⟨Nat.le_add_left _ _, Nat.le_of_ble_eq_true rfl⟩
theorem cmpSr (ofs : Byte) : Statement (.cmpSr ofs) := ⟨Nat.le_add_left _ _, Nat.le_of_ble_eq_true rfl⟩
theorem cpyDp (dp : Byte) : Statement (.cpyDp dp) := ⟨Nat.le_add_left _ _, Nat.le_of_ble_eq_true rfl⟩
theorem cmpDp (dp : Byte) : Statement (.cmpDp dp) := ⟨Nat.le_add_left _ _, Nat.le_of_ble_eq_true rfl⟩
theorem decDp (dp : Byte) : Statement (.decDp dp) := ⟨Nat.le_add_left _ _, Nat.le_of_ble_eq_true rfl⟩
theorem cmpDpIndL (dp : Byte) : Statement (.cmpDpIndL dp) := ⟨Nat.le_add_left _ _, Nat.le_of_ble_eq_true rfl⟩
theorem cmpImm (imm : Imm) : Statement (.cmpImm imm) := of_immBytes _ imm
theorem cpyAbs (abs : Word) : Statement (.cpyAbs abs) := ⟨Nat.le_add_left _ _, Nat.le_of_ble_eq_true rfl⟩
theorem cmpAbs (abs : Word) : Statement (.cmpAbs abs) := ⟨Nat.le_add_left _ _, Nat.le_of_ble_eq_true rfl⟩
theorem decAbs (abs : Word) : Statement (.decAbs abs) := ⟨Nat.le_add_left _ _, Nat.le_of_ble_eq_true rfl⟩
theorem cmpLong (long : Addr) : Statement (.cmpLong long) := ⟨Nat.le_add_left _ _, Nat.le_of_ble_eq_true rfl⟩
theorem bne (rel : Byte) : Statement (.bne rel) := ⟨Nat.le_add_left _ _, Nat.le_of_ble_eq_true rfl⟩
theorem cmpDpIndY (dp : Byte) : Statement (.cmpDpIndY dp) := ⟨Nat.le_add_left _ _, Nat.le_of_ble_eq_true rfl⟩
theorem cmpDpInd (dp : Byte) : Statement (.cmpDpInd dp) := ⟨Nat.le_add_left _ _, Nat.le_of_ble_eq_true rfl⟩
theorem cmpSrIndY (ofs : Byte) : Statement (.cmpSrIndY ofs) := ⟨Nat.le_add_left _ _, Nat.le_of_ble_eq_true rfl⟩
theorem pei (dp : Byte) : Statement (.pei dp) := ⟨Nat.le_add_left _ _, Nat.le_of_ble_eq_true rfl⟩
theorem cmpDpX (dp : Byte) : Statement (.cmpDpX dp) := ⟨Nat.le_add_left _ _, Nat.le_of_ble_eq_true rfl⟩
theorem decDpX (dp : Byte) : Statement (.decDpX dp) := ⟨Nat.le_add_left _ _, Nat.le_of_ble_eq_true rfl⟩
theorem cmpDpIndLY (dp : Byte) : Statement (.cmpDpIndLY dp) := ⟨Nat.le_add_left _ _, Nat.le_of_ble_eq_true rfl⟩
theorem cmpAbsY (abs : Word) : Statement (.cmpAbsY abs) := ⟨Nat.le_add_left _ _, Nat.le_of_ble_eq_true rfl⟩
theorem jmlAbsIndL (abs : Word) : Statement (.jmlAbsIndL abs) := ⟨Nat.le_add_left _ _, Nat.le_of_ble_eq_true rfl⟩
theorem cmpAbsX (abs : Word) : Statement (.cmpAbsX abs) := ⟨Nat.le_add_left _ _, Nat.le_of_ble_eq_true rfl⟩
theorem decAbsX (abs : Word) : Statement (.decAbsX abs) := ⟨Nat.le_add_left _ _, Nat.le_of_ble_eq_true rfl⟩
theorem cmpLongX (long : Addr) : Statement (.cmpLongX long) := ⟨Nat.le_add_left _ _, Nat.le_of_ble_eq_true rfl⟩
theorem cpxImm (imm : Imm) : Statement (.cpxImm imm) := of_immBytes _ imm
theorem sbcDpXInd (dp : Byte) : Statement (.sbcDpXInd dp) := ⟨Nat.le_add_left _ _, Nat.le_of_ble_eq_true rfl⟩
theorem sep (imm : Byte) : Statement (.sep imm) := ⟨Nat.le_add_left _ _, Nat.le_of_ble_eq_true rfl⟩
theorem sbcSr (ofs : Byte) : Statement (.sbcSr ofs) := ⟨Nat.le_add_left _ _, Nat.le_of_ble_eq_true rfl⟩
theorem cpxDp (dp : Byte) : Statement (.cpxDp dp) := ⟨Nat.le_add_left _ _, Nat.le_of_ble_eq_true rfl⟩
theorem sbcDp (dp : Byte) : Statement (.sbcDp dp) := ⟨Nat.le_add_left _ _, Nat.le_of_ble_eq_true rfl⟩
theorem incDp (dp : Byte) : Statement (.incDp dp) := ⟨Nat.le_add_left _ _, Nat.le_of_ble_eq_true rfl⟩
theorem sbcDpIndL (dp : Byte) : Statement (.sbcDpIndL dp) := ⟨Nat.le_add_left _ _, Nat.le_of_ble_eq_true rfl⟩
theorem sbcImm (imm : Imm) : Statement (.sbcImm imm) := of_immBytes _ imm
theorem cpxAbs (abs : Word) : Statement (.cpxAbs abs) := ⟨Nat.le_add_left _ _, Nat.le_of_ble_eq_true rfl⟩
theorem sbcAbs (abs : Word) : Statement (.sbcAbs abs) := ⟨Nat.le_add_left _ _, Nat.le_of_ble_eq_true rfl⟩
theorem incAbs (abs : Word) : Statement (.incAbs abs) := ⟨Nat.le_add_left _ _, Nat.le_of_ble_eq_true rfl⟩
theorem sbcLong (long : Addr) : Statement (.sbcLong long) := ⟨Nat.le_add_left _ _, Nat.le_of_ble_eq_true rfl⟩
theorem beq (rel : Byte) : Statement (.beq rel) := ⟨Nat.le_add_left _ _, Nat.le_of_ble_eq_true rfl⟩
theorem sbcDpIndY (dp : Byte) : Statement (.sbcDpIndY dp) := ⟨Nat.le_add_left _ _, Nat.le_of_ble_eq_true rfl⟩
theorem sbcDpInd (dp : Byte) : Statement (.sbcDpInd dp) := ⟨Nat.le_add_left _ _, Nat.le_of_ble_eq_true rfl⟩
theorem sbcSrIndY (ofs : Byte) : Statement (.sbcSrIndY ofs) := ⟨Nat.le_add_left _ _, Nat.le_of_ble_eq_true rfl⟩
theorem pea (imm : Word) : Statement (.pea imm) := ⟨Nat.le_add_left _ _, Nat.le_of_ble_eq_true rfl⟩
theorem sbcDpX (dp : Byte) : Statement (.sbcDpX dp) := ⟨Nat.le_add_left _ _, Nat.le_of_ble_eq_true rfl⟩
theorem incDpX (dp : Byte) : Statement (.incDpX dp) := ⟨Nat.le_add_left _ _, Nat.le_of_ble_eq_true rfl⟩
theorem sbcDpIndLY (dp : Byte) : Statement (.sbcDpIndLY dp) := ⟨Nat.le_add_left _ _, Nat.le_of_ble_eq_true rfl⟩
theorem sbcAbsY (abs : Word) : Statement (.sbcAbsY abs) := ⟨Nat.le_add_left _ _, Nat.le_of_ble_eq_true rfl⟩
theorem jsrAbsXInd (abs : Word) : Statement (.jsrAbsXInd abs) := ⟨Nat.le_add_left _ _, Nat.le_of_ble_eq_true rfl⟩
theorem sbcAbsX (abs : Word) : Statement (.sbcAbsX abs) := ⟨Nat.le_add_left _ _, Nat.le_of_ble_eq_true rfl⟩
theorem incAbsX (abs : Word) : Statement (.incAbsX abs) := ⟨Nat.le_add_left _ _, Nat.le_of_ble_eq_true rfl⟩
theorem sbcLongX (long : Addr) : Statement (.sbcLongX long) := ⟨Nat.le_add_left _ _, Nat.le_of_ble_eq_true rfl⟩
theorem php : Statement (.php) := ⟨Nat.le_add_left _ _, Nat.le_of_ble_eq_true rfl⟩
theorem aslAcc : Statement (.aslAcc) := ⟨Nat.le_add_left _ _, Nat.le_of_ble_eq_true rfl⟩
theorem phd : Statement (.phd) := ⟨Nat.le_add_left _ _, Nat.le_of_ble_eq_true rfl⟩
theorem clc : Statement (.clc) := ⟨Nat.le_add_left _ _, Nat.le_of_ble_eq_true rfl⟩
theorem incAcc : Statement (.incAcc) := ⟨Nat.le_add_left _ _, Nat.le_of_ble_eq_true rfl⟩
theorem tcs : Statement (.tcs) := ⟨Nat.le_add_left _ _, Nat.le_of_ble_eq_true rfl⟩
theorem plp : Statement (.plp) := ⟨Nat.le_add_left _ _, Nat.le_of_ble_eq_true rfl⟩
theorem rolAcc : Statement (.rolAcc) := ⟨Nat.le_add_left _ _, Nat.le_of_ble_eq_true rfl⟩
theorem pld : Statement (.pld) := ⟨Nat.le_add_left _ _, Nat.le_of_ble_eq_true rfl⟩
theorem sec : Statement (.sec) := ⟨Nat.le_add_left _ _, Nat.le_of_ble_eq_true rfl⟩
theorem decAcc : Statement (.decAcc) := ⟨Nat.le_add_left _ _, Nat.le_of_ble_eq_true rfl⟩
theorem tsc : Statement (.tsc) := ⟨Nat.le_add_left _ _, Nat.le_of_ble_eq_true rfl⟩
theorem rti : Statement (.rti) := ⟨Nat.le_add_left _ _, Nat.le_of_ble_eq_true rfl⟩
theorem pha : Statement (.pha) := ⟨Nat.le_add_left _ _, Nat.le_of_ble_eq_true rfl⟩
theorem lsrAcc : Statement (.lsrAcc) := ⟨Nat.le_add_left _ _, Nat.le_of_ble_eq_true rfl⟩
theorem phk : Statement (.phk) := ⟨Nat.le_add_left _ _, Nat.le_of_ble_eq_true rfl⟩
theorem cli : Statement (.cli) := ⟨Nat.le_add_left _ _, Nat.le_of_ble_eq_true rfl⟩
theorem phy : Statement (.phy) := ⟨Nat.le_add_left _ _, Nat.le_of_ble_eq_true rfl⟩
theorem tcd : Statement (.tcd) := ⟨Nat.le_add_left _ _, Nat.le_of_ble_eq_true rfl⟩
theorem rts : Statement (.rts) := ⟨Nat.le_add_left _ _, Nat.le_of_ble_eq_true rfl⟩
theorem pla : Statement (.pla) := ⟨Nat.le_add_left _ _, Nat.le_of_ble_eq_true rfl⟩
theorem rorAcc : Statement (.rorAcc) := ⟨Nat.le_add_left _ _, Nat.le_of_ble_eq_true rfl⟩
theorem rtl : Statement (.rtl) := ⟨Nat.le_add_left _ _, Nat.le_of_ble_eq_true rfl⟩
theorem sei : Statement (.sei) := ⟨Nat.le_add_left _ _, Nat.le_of_ble_eq_true rfl⟩
theorem ply : Statement (.ply) := ⟨Nat.le_add_left _ _, Nat.le_of_ble_eq_true rfl⟩
theorem tdc : Statement (.tdc) := ⟨Nat.le_add_left _ _, Nat.le_of_ble_eq_true rfl⟩
theorem dey : Statement (.dey) := ⟨Nat.le_add_left _ _, Nat.le_of_ble_eq_true rfl⟩
theorem txa : Statement (.txa) := ⟨Nat.le_add_left _ _, Nat.le_of_ble_eq_true rfl⟩
theorem phb : Statement (.phb) := ⟨Nat.le_add_left _ _, Nat.le_of_ble_eq_true rfl⟩
theorem tya : Statement (.tya) := ⟨Nat.le_add_left _ _, Nat.le_of_ble_eq_true rfl⟩
theorem txs : Statement (.txs) := ⟨Nat.le_add_left _ _, Nat.le_of_ble_eq_true rfl⟩
theorem txy : Statement (.txy) := ⟨Nat.le_add_left _ _, Nat.le_of_ble_eq_true rfl⟩
theorem tay : Statement (.tay) := ⟨Nat.le_add_left _ _, Nat.le_of_ble_eq_true rfl⟩
theorem tax : Statement (.tax) := ⟨Nat.le_add_left _ _, Nat.le_of_ble_eq_true rfl⟩
theorem plb : Statement (.plb) := ⟨Nat.le_add_left _ _, Nat.le_of_ble_eq_true rfl⟩
theorem clv : Statement (.clv) := ⟨Nat.le_add_left _ _, Nat.le_of_ble_eq_true rfl⟩
theorem tsx : Statement (.tsx) := ⟨Nat.le_add_left _ _, Nat.le_of_ble_eq_true rfl⟩
theorem tyx : Statement (.tyx) := ⟨Nat.le_add_left _ _, Nat.le_of_ble_eq_true rfl⟩
theorem iny : Statement (.iny) := ⟨Nat.le_add_left _ _, Nat.le_of_ble_eq_true rfl⟩
theorem dex : Statement (.dex) := ⟨Nat.le_add_left _ _, Nat.le_of_ble_eq_true rfl⟩
theorem wai : Statement (.wai) := ⟨Nat.le_add_left _ _, Nat.le_of_ble_eq_true rfl⟩
theorem cld : Statement (.cld) := ⟨Nat.le_add_left _ _, Nat.le_of_ble_eq_true rfl⟩
theorem phx : Statement (.phx) := ⟨Nat.le_add_left _ _, Nat.le_of_ble_eq_true rfl⟩
theorem stp : Statement (.stp) := ⟨Nat.le_add_left _ _, Nat.le_of_ble_eq_true rfl⟩
theorem inx : Statement (.inx) := ⟨Nat.le_add_left _ _, Nat.le_of_ble_eq_true rfl⟩
theorem nop : Statement (.nop) := ⟨Nat.le_add_left _ _, Nat.le_of_ble_eq_true rfl⟩
theorem xba : Statement (.xba) := ⟨Nat.le_add_left _ _, Nat.le_of_ble_eq_true rfl⟩
theorem sed : Statement (.sed) := ⟨Nat.le_add_left _ _, Nat.le_of_ble_eq_true rfl⟩
theorem plx : Statement (.plx) := ⟨Nat.le_add_left _ _, Nat.le_of_ble_eq_true rfl⟩
theorem xce : Statement (.xce) := ⟨Nat.le_add_left _ _, Nat.le_of_ble_eq_true rfl⟩

end Sys2Proof.Laws.EncodedLength
end

