-- ==== Sys2Proof/Laws/Step.lean ====
section
/-! SUPPORT. What a step does at its boundary, once for each case of rule R349. -/

namespace Sys2Proof.Machine

/-- With nothing in the way, the boundary hands the state over to the fetch, with the inputs of the step consumed. -/
theorem State.boundary_of_undisturbed {s : State} (h : s.undisturbed) : s.boundary = .execute s.nextInput := by
  obtain ⟨h1, h2, h3, h4, h5, h6⟩ := h
  have hw : State.wake (State.latchNmi s.input.nmi s.nextInput) = s.nextInput := by
    simp [State.wake, State.latchNmi, State.nextInput, h5, h4, h3]
  have hp : State.pendingEvent s.input.irq s.nextInput = none := by
    unfold State.pendingEvent
    simp only [State.nextInput_nmiPending, h4]
    cases hq : s.input.irq
    · simp
    · have := h6 hq
      simp [this]
  simp only [State.boundary, h1, h2, Bool.false_eq_true, if_false, State.sample, State.nextInput_waiting,
    State.latchNmi_waiting, h3, Bool.false_and]
  rw [hw, hp]

/-- A step with RESET asserted is the RESET event. -/
theorem step_reset {s : State} (h : s.input.reset = true) : step s = .next s.nextInput.resetEvent := by
  unfold step State.boundary
  simp only [h, if_true]

/-- A stopped processor's step consumes its inputs and does nothing else. -/
theorem step_stopped {s : State} (hr : s.input.reset = false) (hs : s.stopped = true) :
    step s = .next s.nextInput := by
  unfold step State.boundary
  simp only [hr, hs, if_true, Bool.false_eq_true, if_false]

/-- A step that takes an NMI. -/
theorem step_nmi {s : State} (hr : s.input.reset = false) (hs : s.stopped = false)
    (hn : s.nmiPending = true ∨ s.input.nmi = true) :
    step s = .next (State.interrupt .nmi { s.nextInput with waiting := false, nmiPending := true }) := by
  have hp : (s.nmiPending || s.input.nmi) = true := by rcases hn with h | h <;> simp [h]
  have h1 : (State.latchNmi s.input.nmi s.nextInput).nmiPending = true := hp
  have hw : State.wake (State.latchNmi s.input.nmi s.nextInput) =
      { s.nextInput with waiting := false, nmiPending := true } := by
    simp only [State.wake, State.latchNmi, State.nextInput, hp]
  unfold step State.boundary
  simp only [hr, hs, Bool.false_eq_true, if_false, State.sample, h1, Bool.true_or, Bool.not_true, Bool.and_false,
    State.pendingEvent, State.wake_nmiPending, if_true]
  rw [hw]

/-- A step that takes an IRQ. -/
theorem step_irq {s : State} (hr : s.input.reset = false) (hs : s.stopped = false) (hn : s.nmiPending = false)
    (hn' : s.input.nmi = false) (hq : s.input.irq = true) (hi : s.flag .i = false) :
    step s = .next (State.interrupt .irq { s.nextInput with waiting := false }) := by
  have h1 : (State.latchNmi s.input.nmi s.nextInput).nmiPending = false := by
    show (s.nmiPending || s.input.nmi) = false
    simp [hn, hn']
  have h2 : (State.wake (State.latchNmi s.input.nmi s.nextInput)).flag .i = false := hi
  have hw : State.wake (State.latchNmi s.input.nmi s.nextInput) =
      { s.nextInput with waiting := false } := by
    simp only [State.wake, State.latchNmi, State.nextInput, hn, hn', Bool.or_false]
  unfold step State.boundary
  simp only [hr, hs, Bool.false_eq_true, if_false, State.sample, h1, hq, Bool.or_true, Bool.not_true, Bool.and_false,
    State.pendingEvent, State.wake_nmiPending, h2, Bool.not_false, Bool.and_true, if_true]
  rw [hw]

/-- Taking an NMI clears the latch, whatever it held. -/
theorem State.interrupt_nmi (s : State) (b : Bool) :
    State.interrupt .nmi { s with nmiPending := b } = State.interrupt .nmi { s with nmiPending := false } := by
  unfold State.interrupt State.pushFrame
  cases s.e <;> simp only [State.push8, State.push16, State.setFlag, State.readB0, State.read16,
    Bool.false_eq_true, if_true, if_false, bne_self_eq_false, Bool.and_false, State.mk.injEq, true_and, and_true] <;>
    exact congrArg₂ word16 (State.readByte_congr rfl rfl rfl rfl _ _) (State.readByte_congr rfl rfl rfl rfl _ _)

end Sys2Proof.Machine
end

