-- ==== Sys2Proof/Tests/Slice0.lean ====
section
/-! SUPPORT. The model's own tests: what well-formedness refuses, the decoding of every row of the opcode table from
words written out from the spec's encodings (R92 to R97), single steps from the spec's test vectors
(95_test_vectors.md, by their numbers), and for every obligation with hypotheses a state and operands that meet
them. -/

namespace Sys2Proof.Tests

open Sys2Proof Sys2Proof.Machine

/-! ### Well-formedness: an ill-formed term for each check (R94) -/

theorem test_wf_refuses_word_for_m_one : (Instr.adcImm (.word 0x1250)).wf true true = false := by decide

theorem test_wf_refuses_byte_for_m_zero : (Instr.ldaImm (.byte 0x50)).wf false true = false := by decide

theorem test_wf_refuses_word_for_x_one : (Instr.ldxImm (.word 0x1250)).wf false true = false := by decide

theorem test_wf_refuses_byte_for_x_zero : (Instr.cpyImm (.byte 0x50)).wf true false = false := by decide

/-! ### Decoding: one theorem per row of the opcode map (R96); the operand bytes are 34, 12, 56 in address order -/

/-- The instruction that a list of bytes begins with, and the number of bytes left. -/
def decodes (m x : Bool) (bytes : List Byte) : Option (Instr × Nat) :=
  match decode m x bytes with
  | .ok (i, rest) => some (i, rest.length)
  | .error _ => none

/-- Each opcode, followed by 34 12 56 under m = x = 1, decodes to its instruction and leaves so many bytes. -/
def decodeRow (rows : List (Byte × Instr × Nat)) : Bool :=
  rows.all fun row => decodes true true [row.1, 0x34, 0x12, 0x56] == some row.2

theorem test_decode_row_0 :
    decodeRow [
      (0x00, .brk 0x34, 2), (0x01, .oraDpXInd 0x34, 2), (0x02, .cop 0x34, 2), (0x03, .oraSr 0x34, 2),
      (0x04, .tsbDp 0x34, 2), (0x05, .oraDp 0x34, 2), (0x06, .aslDp 0x34, 2), (0x07, .oraDpIndL 0x34, 2),
      (0x08, .php, 3), (0x09, .oraImm (.byte 0x34), 2), (0x0A, .aslAcc, 3), (0x0B, .phd, 3),
      (0x0C, .tsbAbs 0x1234, 1), (0x0D, .oraAbs 0x1234, 1), (0x0E, .aslAbs 0x1234, 1),
      (0x0F, .oraLong 0x561234, 0)] = true := by
  decide

theorem test_decode_row_1 :
    decodeRow [
      (0x10, .bpl 0x34, 2), (0x11, .oraDpIndY 0x34, 2), (0x12, .oraDpInd 0x34, 2), (0x13, .oraSrIndY 0x34, 2),
      (0x14, .trbDp 0x34, 2), (0x15, .oraDpX 0x34, 2), (0x16, .aslDpX 0x34, 2), (0x17, .oraDpIndLY 0x34, 2),
      (0x18, .clc, 3), (0x19, .oraAbsY 0x1234, 1), (0x1A, .incAcc, 3), (0x1B, .tcs, 3),
      (0x1C, .trbAbs 0x1234, 1), (0x1D, .oraAbsX 0x1234, 1), (0x1E, .aslAbsX 0x1234, 1),
      (0x1F, .oraLongX 0x561234, 0)] = true := by
  decide

theorem test_decode_row_2 :
    decodeRow [
      (0x20, .jsrAbs 0x1234, 1), (0x21, .andDpXInd 0x34, 2), (0x22, .jsl 0x561234, 0), (0x23, .andSr 0x34, 2),
      (0x24, .bitDp 0x34, 2), (0x25, .andDp 0x34, 2), (0x26, .rolDp 0x34, 2), (0x27, .andDpIndL 0x34, 2),
      (0x28, .plp, 3), (0x29, .andImm (.byte 0x34), 2), (0x2A, .rolAcc, 3), (0x2B, .pld, 3),
      (0x2C, .bitAbs 0x1234, 1), (0x2D, .andAbs 0x1234, 1), (0x2E, .rolAbs 0x1234, 1),
      (0x2F, .andLong 0x561234, 0)] = true := by
  decide

theorem test_decode_row_3 :
    decodeRow [
      (0x30, .bmi 0x34, 2), (0x31, .andDpIndY 0x34, 2), (0x32, .andDpInd 0x34, 2), (0x33, .andSrIndY 0x34, 2),
      (0x34, .bitDpX 0x34, 2), (0x35, .andDpX 0x34, 2), (0x36, .rolDpX 0x34, 2), (0x37, .andDpIndLY 0x34, 2),
      (0x38, .sec, 3), (0x39, .andAbsY 0x1234, 1), (0x3A, .decAcc, 3), (0x3B, .tsc, 3),
      (0x3C, .bitAbsX 0x1234, 1), (0x3D, .andAbsX 0x1234, 1), (0x3E, .rolAbsX 0x1234, 1),
      (0x3F, .andLongX 0x561234, 0)] = true := by
  decide

theorem test_decode_row_4 :
    decodeRow [
      (0x40, .rti, 3), (0x41, .eorDpXInd 0x34, 2), (0x42, .wdm 0x34, 2), (0x43, .eorSr 0x34, 2),
      (0x44, .mvp 0x34 0x12, 1), (0x45, .eorDp 0x34, 2), (0x46, .lsrDp 0x34, 2), (0x47, .eorDpIndL 0x34, 2),
      (0x48, .pha, 3), (0x49, .eorImm (.byte 0x34), 2), (0x4A, .lsrAcc, 3), (0x4B, .phk, 3),
      (0x4C, .jmpAbs 0x1234, 1), (0x4D, .eorAbs 0x1234, 1), (0x4E, .lsrAbs 0x1234, 1),
      (0x4F, .eorLong 0x561234, 0)] = true := by
  decide

theorem test_decode_row_5 :
    decodeRow [
      (0x50, .bvc 0x34, 2), (0x51, .eorDpIndY 0x34, 2), (0x52, .eorDpInd 0x34, 2), (0x53, .eorSrIndY 0x34, 2),
      (0x54, .mvn 0x34 0x12, 1), (0x55, .eorDpX 0x34, 2), (0x56, .lsrDpX 0x34, 2), (0x57, .eorDpIndLY 0x34, 2),
      (0x58, .cli, 3), (0x59, .eorAbsY 0x1234, 1), (0x5A, .phy, 3), (0x5B, .tcd, 3),
      (0x5C, .jmlLong 0x561234, 0), (0x5D, .eorAbsX 0x1234, 1), (0x5E, .lsrAbsX 0x1234, 1),
      (0x5F, .eorLongX 0x561234, 0)] = true := by
  decide

theorem test_decode_row_6 :
    decodeRow [
      (0x60, .rts, 3), (0x61, .adcDpXInd 0x34, 2), (0x62, .per 0x1234, 1), (0x63, .adcSr 0x34, 2),
      (0x64, .stzDp 0x34, 2), (0x65, .adcDp 0x34, 2), (0x66, .rorDp 0x34, 2), (0x67, .adcDpIndL 0x34, 2),
      (0x68, .pla, 3), (0x69, .adcImm (.byte 0x34), 2), (0x6A, .rorAcc, 3), (0x6B, .rtl, 3),
      (0x6C, .jmpAbsInd 0x1234, 1), (0x6D, .adcAbs 0x1234, 1), (0x6E, .rorAbs 0x1234, 1),
      (0x6F, .adcLong 0x561234, 0)] = true := by
  decide

theorem test_decode_row_7 :
    decodeRow [
      (0x70, .bvs 0x34, 2), (0x71, .adcDpIndY 0x34, 2), (0x72, .adcDpInd 0x34, 2), (0x73, .adcSrIndY 0x34, 2),
      (0x74, .stzDpX 0x34, 2), (0x75, .adcDpX 0x34, 2), (0x76, .rorDpX 0x34, 2), (0x77, .adcDpIndLY 0x34, 2),
      (0x78, .sei, 3), (0x79, .adcAbsY 0x1234, 1), (0x7A, .ply, 3), (0x7B, .tdc, 3),
      (0x7C, .jmpAbsXInd 0x1234, 1), (0x7D, .adcAbsX 0x1234, 1), (0x7E, .rorAbsX 0x1234, 1),
      (0x7F, .adcLongX 0x561234, 0)] = true := by
  decide

theorem test_decode_row_8 :
    decodeRow [
      (0x80, .bra 0x34, 2), (0x81, .staDpXInd 0x34, 2), (0x82, .brl 0x1234, 1), (0x83, .staSr 0x34, 2),
      (0x84, .styDp 0x34, 2), (0x85, .staDp 0x34, 2), (0x86, .stxDp 0x34, 2), (0x87, .staDpIndL 0x34, 2),
      (0x88, .dey, 3), (0x89, .bitImm (.byte 0x34), 2), (0x8A, .txa, 3), (0x8B, .phb, 3),
      (0x8C, .styAbs 0x1234, 1), (0x8D, .staAbs 0x1234, 1), (0x8E, .stxAbs 0x1234, 1),
      (0x8F, .staLong 0x561234, 0)] = true := by
  decide

theorem test_decode_row_9 :
    decodeRow [
      (0x90, .bcc 0x34, 2), (0x91, .staDpIndY 0x34, 2), (0x92, .staDpInd 0x34, 2), (0x93, .staSrIndY 0x34, 2),
      (0x94, .styDpX 0x34, 2), (0x95, .staDpX 0x34, 2), (0x96, .stxDpY 0x34, 2), (0x97, .staDpIndLY 0x34, 2),
      (0x98, .tya, 3), (0x99, .staAbsY 0x1234, 1), (0x9A, .txs, 3), (0x9B, .txy, 3), (0x9C, .stzAbs 0x1234, 1),
      (0x9D, .staAbsX 0x1234, 1), (0x9E, .stzAbsX 0x1234, 1), (0x9F, .staLongX 0x561234, 0)] = true := by
  decide

theorem test_decode_row_A :
    decodeRow [
      (0xA0, .ldyImm (.byte 0x34), 2), (0xA1, .ldaDpXInd 0x34, 2), (0xA2, .ldxImm (.byte 0x34), 2),
      (0xA3, .ldaSr 0x34, 2), (0xA4, .ldyDp 0x34, 2), (0xA5, .ldaDp 0x34, 2), (0xA6, .ldxDp 0x34, 2),
      (0xA7, .ldaDpIndL 0x34, 2), (0xA8, .tay, 3), (0xA9, .ldaImm (.byte 0x34), 2), (0xAA, .tax, 3),
      (0xAB, .plb, 3), (0xAC, .ldyAbs 0x1234, 1), (0xAD, .ldaAbs 0x1234, 1), (0xAE, .ldxAbs 0x1234, 1),
      (0xAF, .ldaLong 0x561234, 0)] = true := by
  decide

theorem test_decode_row_B :
    decodeRow [
      (0xB0, .bcs 0x34, 2), (0xB1, .ldaDpIndY 0x34, 2), (0xB2, .ldaDpInd 0x34, 2), (0xB3, .ldaSrIndY 0x34, 2),
      (0xB4, .ldyDpX 0x34, 2), (0xB5, .ldaDpX 0x34, 2), (0xB6, .ldxDpY 0x34, 2), (0xB7, .ldaDpIndLY 0x34, 2),
      (0xB8, .clv, 3), (0xB9, .ldaAbsY 0x1234, 1), (0xBA, .tsx, 3), (0xBB, .tyx, 3), (0xBC, .ldyAbsX 0x1234, 1),
      (0xBD, .ldaAbsX 0x1234, 1), (0xBE, .ldxAbsY 0x1234, 1), (0xBF, .ldaLongX 0x561234, 0)] = true := by
  decide

theorem test_decode_row_C :
    decodeRow [
      (0xC0, .cpyImm (.byte 0x34), 2), (0xC1, .cmpDpXInd 0x34, 2), (0xC2, .rep 0x34, 2), (0xC3, .cmpSr 0x34, 2),
      (0xC4, .cpyDp 0x34, 2), (0xC5, .cmpDp 0x34, 2), (0xC6, .decDp 0x34, 2), (0xC7, .cmpDpIndL 0x34, 2),
      (0xC8, .iny, 3), (0xC9, .cmpImm (.byte 0x34), 2), (0xCA, .dex, 3), (0xCB, .wai, 3),
      (0xCC, .cpyAbs 0x1234, 1), (0xCD, .cmpAbs 0x1234, 1), (0xCE, .decAbs 0x1234, 1),
      (0xCF, .cmpLong 0x561234, 0)] = true := by
  decide

theorem test_decode_row_D :
    decodeRow [
      (0xD0, .bne 0x34, 2), (0xD1, .cmpDpIndY 0x34, 2), (0xD2, .cmpDpInd 0x34, 2), (0xD3, .cmpSrIndY 0x34, 2),
      (0xD4, .pei 0x34, 2), (0xD5, .cmpDpX 0x34, 2), (0xD6, .decDpX 0x34, 2), (0xD7, .cmpDpIndLY 0x34, 2),
      (0xD8, .cld, 3), (0xD9, .cmpAbsY 0x1234, 1), (0xDA, .phx, 3), (0xDB, .stp, 3),
      (0xDC, .jmlAbsIndL 0x1234, 1), (0xDD, .cmpAbsX 0x1234, 1), (0xDE, .decAbsX 0x1234, 1),
      (0xDF, .cmpLongX 0x561234, 0)] = true := by
  decide

theorem test_decode_row_E :
    decodeRow [
      (0xE0, .cpxImm (.byte 0x34), 2), (0xE1, .sbcDpXInd 0x34, 2), (0xE2, .sep 0x34, 2), (0xE3, .sbcSr 0x34, 2),
      (0xE4, .cpxDp 0x34, 2), (0xE5, .sbcDp 0x34, 2), (0xE6, .incDp 0x34, 2), (0xE7, .sbcDpIndL 0x34, 2),
      (0xE8, .inx, 3), (0xE9, .sbcImm (.byte 0x34), 2), (0xEA, .nop, 3), (0xEB, .xba, 3),
      (0xEC, .cpxAbs 0x1234, 1), (0xED, .sbcAbs 0x1234, 1), (0xEE, .incAbs 0x1234, 1),
      (0xEF, .sbcLong 0x561234, 0)] = true := by
  decide

theorem test_decode_row_F :
    decodeRow [
      (0xF0, .beq 0x34, 2), (0xF1, .sbcDpIndY 0x34, 2), (0xF2, .sbcDpInd 0x34, 2), (0xF3, .sbcSrIndY 0x34, 2),
      (0xF4, .pea 0x1234, 1), (0xF5, .sbcDpX 0x34, 2), (0xF6, .incDpX 0x34, 2), (0xF7, .sbcDpIndLY 0x34, 2),
      (0xF8, .sed, 3), (0xF9, .sbcAbsY 0x1234, 1), (0xFA, .plx, 3), (0xFB, .xce, 3),
      (0xFC, .jsrAbsXInd 0x1234, 1), (0xFD, .sbcAbsX 0x1234, 1), (0xFE, .incAbsX 0x1234, 1),
      (0xFF, .sbcLongX 0x561234, 0)] = true := by
  decide

/-- With m = 0 the immediates of the accumulator are words, with x = 0 those of the index registers (R94). -/
theorem test_decode_wide_immediates :
    decodes false true [0x69, 0x34, 0x12, 0x56] = some (.adcImm (.word 0x1234), 1) ∧
      decodes false true [0x89, 0x34, 0x12, 0x56] = some (.bitImm (.word 0x1234), 1) ∧
      decodes false true [0xA2, 0x34, 0x12, 0x56] = some (.ldxImm (.byte 0x34), 2) ∧
      decodes true false [0xA0, 0x34, 0x12, 0x56] = some (.ldyImm (.word 0x1234), 1) ∧
      decodes true false [0xE0, 0x34, 0x12, 0x56] = some (.cpxImm (.word 0x1234), 1) ∧
      decodes true false [0xE9, 0x34, 0x12, 0x56] = some (.sbcImm (.byte 0x34), 2) := by
  decide

/-- Bytes that end before the operand does are refused by name. -/
theorem test_decode_truncated :
    decode true true [0xAD, 0x34] = .error (.truncated 0xAD) ∧ decode true true [] = .error .empty := by decide

/-- Bit 0 of a table word is the least significant bit of the first byte. -/
theorem test_decode_table_word :
    decodeTableWord 8 0x22 = some (.jsl 0) ∧ decodeTableWord 24 0x1234AD = some (.ldaAbs 0x1234) := by decide

/-! ### Single steps: vectors of 95_test_vectors.md -/

/-- The native base state of the vectors. -/
def native : State := { State.reset with e := false, p := 0, s := 0x01FF, pc := 0x8000 }

/-- The emulation base state of the vectors. -/
def emulation : State := { State.reset with p := 0x30, s := 0x01FF, pc := 0x8000 }

/-- A step's inputs: the IRQ line asserted. -/
def irqLine : HostInput := { HostInput.idle with irq := true }

/-- A step's inputs: an NMI edge. -/
def nmiEdge : HostInput := { HostInput.idle with nmi := true }

/-- A step's inputs: an NMI edge and the IRQ line. -/
def nmiAndIrq : HostInput := { nmiEdge with irq := true }

/-- A step's inputs: the RESET line. -/
def resetLine : HostInput := { HostInput.idle with reset := true }

/-- One step answers a next state of which this holds. -/
def steps (s : State) (claim : State → Bool) : Bool :=
  match step s with
  | .next t => claim t
  | _ => false

/-- A table word placed where the step fetches is what the next step runs (LDA #$7F, opcode A9). -/
theorem test_withFetchWord :
    steps (State.reset.withFetchWord 16 0x7FA9) fun t => t.c == 0x007F && t.pc == 0x0002 := by
  decide

/-- A RESET event reads the vector at 0x00FFFC and enters emulation mode, stopped or not (R380, R381). -/
theorem test_reset_event :
    steps { native with stopped := true, inputs := [resetLine], mem := [(0xFFFC, 0x34), (0xFFFD, 0x12)] }
      fun t => t.pc == 0x1234 && t.e && !t.stopped && t.pbr == 0 := by
  decide

/-- V2. -/
theorem test_V2_adc_carry_in_and_out :
    steps { native with c := 0xABFF, p := 0x21, mem := [(0x008000, 0x69), (0x008001, 0x00)] } fun t =>
      t.c == 0xAB00 && t.pc == 0x8002 && t.p == 0x23 := by
  decide

/-- V10. -/
theorem test_V10_sbc_sixteen_bit_overflow :
    steps { native with c := 0x8000, p := 0x01, mem := [(0x008000, 0xE9), (0x008001, 0x01), (0x008002, 0x00)] }
      fun t =>
      t.c == 0x7FFF && t.pc == 0x8003 && t.p == 0x41 := by
  decide

/-- V12. -/
theorem test_V12_adc_decimal :
    steps { native with c := 0x0019, p := 0x28, mem := [(0x008000, 0x69), (0x008001, 0x28)] } fun t =>
      t.c == 0x0047 && t.pc == 0x8002 := by
  decide

/-- V17. -/
theorem test_V17_sbc_decimal_borrow :
    steps { native with p := 0x29, mem := [(0x008000, 0xE9), (0x008001, 0x01)] } fun t =>
      t.c == 0x0099 && t.pc == 0x8002 := by
  decide

/-- V19. -/
theorem test_V19_cmp_below :
    steps { native with c := 0x0010, p := 0x60, mem := [(0x008000, 0xC9), (0x008001, 0x20)] } fun t =>
      t.pc == 0x8002 && t.p == 0xE0 := by
  decide

/-- V24. -/
theorem test_V24_cpx_eight_bit :
    steps { native with x := 0x00FF, p := 0x10, mem := [(0x008000, 0xE0), (0x008001, 0x01)] } fun t =>
      t.pc == 0x8002 && t.p == 0x91 := by
  decide

/-- V25. -/
theorem test_V25_cpy_absolute :
    steps { native with y := 0x0100, dbr := 0x01, mem := [(0x008000, 0xCC), (0x008001, 0x00), (0x008002, 0x30),
      (0x013000, 0x00), (0x013001, 0x01)] } fun t =>
      t.pc == 0x8003 && t.p == 0x03 := by
  decide

/-- V27. -/
theorem test_V27_inc_accumulator_sixteen_bit :
    steps { native with c := 0x12FF, mem := [(0x008000, 0x1A)] } fun t =>
      t.c == 0x1300 && t.pc == 0x8001 := by
  decide

/-- V30. -/
theorem test_V30_dec_across_banks :
    steps { native with x := 0x0001, dbr := 0x7E, mem := [(0x008000, 0xDE), (0x008001, 0xFE), (0x008002, 0xFF),
      (0x7EFFFF, 0x00), (0x7F0000, 0x01)] } fun t =>
      t.pc == 0x8003 && t.byteAt 0x7EFFFF == 0xFF && t.byteAt 0x7F0000 == 0x00 := by
  decide

/-- V31. -/
theorem test_V31_inx_eight_bit_wraps :
    steps { native with x := 0x00FF, p := 0x10, mem := [(0x008000, 0xE8)] } fun t =>
      t.x == 0x0000 && t.pc == 0x8001 && t.p == 0x12 := by
  decide

/-- V33. -/
theorem test_V33_dex_eight_bit_wraps :
    steps { native with p := 0x10, mem := [(0x008000, 0xCA)] } fun t =>
      t.x == 0x00FF && t.pc == 0x8001 && t.p == 0x90 := by
  decide

/-- V34. -/
theorem test_V34_iny_sign_change :
    steps { native with y := 0x7FFF, mem := [(0x008000, 0xC8)] } fun t =>
      t.y == 0x8000 && t.pc == 0x8001 && t.p == 0x80 := by
  decide

/-- V35. -/
theorem test_V35_dey_to_zero :
    steps { native with y := 0x0001, p := 0x10, mem := [(0x008000, 0x88)] } fun t =>
      t.y == 0x0000 && t.pc == 0x8001 && t.p == 0x12 := by
  decide

/-- V36. -/
theorem test_V36_and_keeps_B :
    steps { native with c := 0x55F0, p := 0x20, mem := [(0x008000, 0x29), (0x008001, 0x0F)] } fun t =>
      t.c == 0x5500 && t.pc == 0x8002 && t.p == 0x22 := by
  decide

/-- V37. -/
theorem test_V37_ora_sixteen_bit :
    steps { native with c := 0x00F0, mem := [(0x008000, 0x09), (0x008001, 0x0F), (0x008002, 0x80)] } fun t =>
      t.c == 0x80FF && t.pc == 0x8003 && t.p == 0x80 := by
  decide

/-- V39. -/
theorem test_V39_eor_indirect_indexed :
    steps { native with c := 0x00FF, y := 0x0002, dbr := 0x01, p := 0x20, mem := [(0x000010, 0xFF),
      (0x000011, 0xFF), (0x008000, 0x51), (0x008001, 0x10), (0x020001, 0x0F)] } fun t =>
      t.c == 0x00F0 && t.pc == 0x8002 && t.p == 0xA0 := by
  decide

/-- V41. -/
theorem test_V41_asl_keeps_B :
    steps { native with c := 0x8181, p := 0x20, mem := [(0x008000, 0x0A)] } fun t =>
      t.c == 0x8102 && t.pc == 0x8001 && t.p == 0x21 := by
  decide

/-- V44. -/
theorem test_V44_lsr_sixteen_bit :
    steps { native with mem := [(0x001000, 0x01), (0x001001, 0x80), (0x008000, 0x4E), (0x008001, 0x00),
      (0x008002, 0x10)] } fun t =>
      t.pc == 0x8003 && t.p == 0x01 && t.byteAt 0x001000 == 0x00 && t.byteAt 0x001001 == 0x40 := by
  decide

/-- V46. -/
theorem test_V46_rol_direct_indexed :
    steps { native with x := 0x0001, p := 0x20, mem := [(0x000011, 0x40), (0x008000, 0x36), (0x008001, 0x10)] }
      fun t =>
      t.pc == 0x8002 && t.p == 0xA0 && t.byteAt 0x000011 == 0x80 := by
  decide

/-- V49. -/
theorem test_V49_ror_carry_into_top :
    steps { native with p := 0x01, mem := [(0x000010, 0x00), (0x000011, 0x00), (0x008000, 0x66),
      (0x008001, 0x10)] } fun t =>
      t.pc == 0x8002 && t.p == 0x80 && t.byteAt 0x000011 == 0x80 := by
  decide

/-- V50. -/
theorem test_V50_bit_memory_flags :
    steps { native with c := 0x0001, mem := [(0x001000, 0x00), (0x001001, 0xC0), (0x008000, 0x2C),
      (0x008001, 0x00), (0x008002, 0x10)] } fun t =>
      t.pc == 0x8003 && t.p == 0xC2 := by
  decide

/-- V52. -/
theorem test_V52_bit_immediate_writes_z_only :
    steps { native with c := 0x00FF, p := 0xE0, mem := [(0x008000, 0x89), (0x008001, 0x00)] } fun t =>
      t.pc == 0x8002 && t.p == 0xE2 := by
  decide

/-- V54. -/
theorem test_V54_tsb_tests_before :
    steps { native with c := 0x00F0, mem := [(0x001000, 0x0F), (0x001001, 0x01), (0x008000, 0x0C),
      (0x008001, 0x00), (0x008002, 0x10)] } fun t =>
      t.pc == 0x8003 && t.p == 0x02 && t.byteAt 0x001000 == 0xFF := by
  decide

/-- V55. -/
theorem test_V55_trb_clears_bits :
    steps { native with c := 0x00F0, p := 0x20, mem := [(0x000020, 0x3C), (0x008000, 0x14), (0x008001, 0x20)] }
      fun t =>
      t.pc == 0x8002 && t.byteAt 0x000020 == 0x0C := by
  decide

/-- V57. -/
theorem test_V57_direct_indexed_page_wrap :
    steps { emulation with x := 0x0020, mem := [(0x000010, 0xAA), (0x000110, 0xBB), (0x008000, 0xB5),
      (0x008001, 0xF0)] } fun t =>
      t.c == 0x00AA && t.pc == 0x8002 && t.p == 0xB0 := by
  decide

/-- V60. -/
theorem test_V60_direct_high_byte_bank_zero :
    steps { native with d := 0xFF00, mem := [(0x000000, 0x12), (0x008000, 0xA5), (0x008001, 0xFF),
      (0x00FFFF, 0x34), (0x010000, 0x99)] } fun t =>
      t.c == 0x1234 && t.pc == 0x8002 := by
  decide

/-- V62. -/
theorem test_V62_absolute_indexed_next_bank :
    steps { native with x := 0x0020, dbr := 0x12, p := 0x20, mem := [(0x008000, 0xBD), (0x008001, 0xF0),
      (0x008002, 0xFF), (0x130010, 0x5A)] } fun t =>
      t.c == 0x005A && t.pc == 0x8003 := by
  decide

/-- V65. -/
theorem test_V65_long_indexed_wraps :
    steps { native with x := 0x0002, p := 0x20, mem := [(0x000001, 0x66), (0x008000, 0xBF), (0x008001, 0xFF),
      (0x008002, 0xFF), (0x008003, 0xFF)] } fun t =>
      t.c == 0x0066 && t.pc == 0x8004 := by
  decide

/-- V67. -/
theorem test_V67_indirect_pointer_page_wrap :
    steps { emulation with mem := [(0x000000, 0x30), (0x0000FF, 0x00), (0x000100, 0x40), (0x003000, 0x11),
      (0x004000, 0x22), (0x008000, 0xB2), (0x008001, 0xFF)] } fun t =>
      t.c == 0x0011 && t.pc == 0x8002 := by
  decide

/-- V73. -/
theorem test_V73_indirect_long_indexed :
    steps { native with y := 0x0001, p := 0x20, mem := [(0x000010, 0xFF), (0x000011, 0xFF), (0x000012, 0x7E),
      (0x008000, 0xB7), (0x008001, 0x10), (0x7F0000, 0x21)] } fun t =>
      t.c == 0x0021 && t.pc == 0x8002 := by
  decide

/-- V75. -/
theorem test_V75_stack_relative_indirect :
    steps { native with y := 0x0002, s := 0x01F0, dbr := 0x01, p := 0x20, mem := [(0x0001F1, 0x00),
      (0x0001F2, 0x40), (0x008000, 0xB3), (0x008001, 0x01), (0x014002, 0x5C)] } fun t =>
      t.c == 0x005C && t.pc == 0x8002 := by
  decide

/-- V76. -/
theorem test_V76_ldx_direct_indexed_by_y :
    steps { native with y := 0x0003, p := 0x10, mem := [(0x000013, 0x2A), (0x008000, 0xB6), (0x008001, 0x10)] }
      fun t =>
      t.x == 0x002A && t.pc == 0x8002 := by
  decide

/-- V80. -/
theorem test_V80_sta_direct_wraps :
    steps { native with c := 0xBEEF, d := 0xFF00, mem := [(0x008000, 0x85), (0x008001, 0xFF)] } fun t =>
      t.pc == 0x8002 && t.byteAt 0x000000 == 0xBE && t.byteAt 0x00FFFF == 0xEF := by
  decide

/-- V83. -/
theorem test_V83_ldy_eight_bit :
    steps { native with y := 0x0011, p := 0x10, mem := [(0x008000, 0xA0), (0x008001, 0x80)] } fun t =>
      t.y == 0x0080 && t.pc == 0x8002 && t.p == 0x90 := by
  decide

/-- V85. -/
theorem test_V85_stx_sixteen_bit :
    steps { native with x := 0x1234, y := 0x0001, mem := [(0x008000, 0x96), (0x008001, 0x10)] } fun t =>
      t.pc == 0x8002 && t.byteAt 0x000011 == 0x34 && t.byteAt 0x000012 == 0x12 := by
  decide

/-- V86. -/
theorem test_V86_sty_eight_bit :
    steps { native with y := 0x007F, dbr := 0x01, p := 0x10, mem := [(0x008000, 0x8C), (0x008001, 0x00),
      (0x008002, 0x30)] } fun t =>
      t.pc == 0x8003 && t.byteAt 0x013000 == 0x7F := by
  decide

/-- V88. -/
theorem test_V88_stz_sixteen_bit :
    steps { native with mem := [(0x001000, 0xFF), (0x001001, 0xFF), (0x008000, 0x9C), (0x008001, 0x00),
      (0x008002, 0x10)] } fun t =>
      t.pc == 0x8003 && t.byteAt 0x001000 == 0x00 && t.byteAt 0x001001 == 0x00 := by
  decide

/-- V89. -/
theorem test_V89_beq_taken_on_zero :
    steps { native with p := 0x02, mem := [(0x008000, 0xF0), (0x008001, 0x10)] } fun t =>
      t.pc == 0x8012 := by
  decide

/-- V91. -/
theorem test_V91_bne_backward :
    steps { native with pc := 0x8010, mem := [(0x008010, 0xD0), (0x008011, 0xEE)] } fun t =>
      t.pc == 0x8000 := by
  decide

/-- V92. -/
theorem test_V92_bcc_not_taken :
    steps { native with p := 0x01, mem := [(0x008000, 0x90), (0x008001, 0x7F)] } fun t =>
      t.pc == 0x8002 := by
  decide

/-- V93. -/
theorem test_V93_bcs_farthest_forward :
    steps { native with p := 0x01, mem := [(0x008000, 0xB0), (0x008001, 0x7F)] } fun t =>
      t.pc == 0x8081 := by
  decide

/-- V94. -/
theorem test_V94_bmi_farthest_backward :
    steps { native with p := 0x80, mem := [(0x008000, 0x30), (0x008001, 0x80)] } fun t =>
      t.pc == 0x7F82 := by
  decide

/-- V95. -/
theorem test_V95_bpl_not_taken :
    steps { native with p := 0x80, mem := [(0x008000, 0x10), (0x008001, 0x10)] } fun t =>
      t.pc == 0x8002 := by
  decide

/-- V96. -/
theorem test_V96_bvc_taken :
    steps { native with mem := [(0x008000, 0x50), (0x008001, 0x04)] } fun t =>
      t.pc == 0x8006 := by
  decide

/-- V97. -/
theorem test_V97_bvs_not_taken :
    steps { native with mem := [(0x008000, 0x70), (0x008001, 0x04)] } fun t =>
      t.pc == 0x8002 := by
  decide

/-- V98. -/
theorem test_V98_bra_wraps_in_bank :
    steps { native with pbr := 0x01, pc := 0xFFFE, mem := [(0x01FFFE, 0x80), (0x01FFFF, 0x10)] } fun t =>
      t.pc == 0x0010 := by
  decide

/-- V99. -/
theorem test_V99_brl_wraps_in_bank :
    steps { native with pbr := 0x02, pc := 0x0000, mem := [(0x020000, 0x82), (0x020001, 0xF0), (0x020002, 0xFF)]
      } fun t =>
      t.pc == 0xFFF3 := by
  decide

/-- V101. -/
theorem test_V101_jmp_indirect_wraps :
    steps { native with pbr := 0x03, mem := [(0x000000, 0x56), (0x00FFFF, 0x78), (0x010000, 0x99),
      (0x038000, 0x6C), (0x038001, 0xFF), (0x038002, 0xFF)] } fun t =>
      t.pc == 0x5678 := by
  decide

/-- V102. -/
theorem test_V102_jmp_indexed_program_bank :
    steps { native with x := 0x0002, pbr := 0x03, mem := [(0x031002, 0xCD), (0x031003, 0xAB), (0x038000, 0x7C),
      (0x038001, 0x00), (0x038002, 0x10)] } fun t =>
      t.pc == 0xABCD := by
  decide

/-- V103. -/
theorem test_V103_jml_indirect_long :
    steps { native with pbr := 0x03, mem := [(0x001000, 0x56), (0x001001, 0x34), (0x001002, 0x12),
      (0x038000, 0xDC), (0x038001, 0x00), (0x038002, 0x10)] } fun t =>
      t.pbr == 0x12 && t.pc == 0x3456 := by
  decide

/-- V106. -/
theorem test_V106_jsr_emulation_wrap :
    steps { emulation with s := 0x0100, mem := [(0x008000, 0x20), (0x008001, 0x00), (0x008002, 0x90)] } fun t =>
      t.s == 0x01FE && t.pc == 0x9000 && t.byteAt 0x000100 == 0x80 && t.byteAt 0x0001FF == 0x02 := by
  decide

/-- V107. -/
theorem test_V107_jsr_indexed :
    steps { native with x := 0x0004, mem := [(0x008000, 0xFC), (0x008001, 0x00), (0x008002, 0x90),
      (0x009004, 0x00), (0x009005, 0xA0)] } fun t =>
      t.s == 0x01FD && t.pc == 0xA000 && t.byteAt 0x0001FE == 0x02 && t.byteAt 0x0001FF == 0x80 := by
  decide

/-- V108. -/
theorem test_V108_jsl_frame :
    steps { native with s := 0x1FFF, pbr := 0x02, mem := [(0x028000, 0x22), (0x028001, 0x00), (0x028002, 0x90),
      (0x028003, 0x7F)] } fun t =>
      t.s == 0x1FFC && t.pbr == 0x7F && t.pc == 0x9000 && t.byteAt 0x001FFD == 0x03 && t.byteAt 0x001FFE == 0x80
        && t.byteAt 0x001FFF == 0x02 := by
  decide

/-- V110. -/
theorem test_V110_rts_wraps_in_bank :
    steps { native with s := 0x01FD, pbr := 0x02, mem := [(0x0001FE, 0xFF), (0x0001FF, 0xFF), (0x028000, 0x60)]
      } fun t =>
      t.s == 0x01FF && t.pc == 0x0000 := by
  decide

/-- V111. -/
theorem test_V111_rtl :
    steps { native with s := 0x1FFC, pbr := 0x7F, pc := 0x9000, mem := [(0x001FFD, 0x03), (0x001FFE, 0x80),
      (0x001FFF, 0x02), (0x7F9000, 0x6B)] } fun t =>
      t.s == 0x1FFF && t.pbr == 0x02 && t.pc == 0x8004 := by
  decide

/-- V113. -/
theorem test_V113_brk_emulation :
    steps { emulation with mem := [(0x008000, 0x00), (0x008001, 0xEA), (0x00FFFE, 0x00), (0x00FFFF, 0x90)] } fun
      t =>
      t.s == 0x01FC && t.pc == 0x9000 && t.p == 0x34 && t.byteAt 0x0001FD == 0x30 && t.byteAt 0x0001FE == 0x02
        && t.byteAt 0x0001FF == 0x80 := by
  decide

/-- V114. -/
theorem test_V114_cop_native :
    steps { native with pbr := 0x01, p := 0xC3, mem := [(0x00FFE4, 0x00), (0x00FFE5, 0xA0), (0x018000, 0x02),
      (0x018001, 0x55)] } fun t =>
      t.s == 0x01FB && t.pbr == 0x00 && t.pc == 0xA000 && t.p == 0xC7 && t.byteAt 0x0001FC == 0xC3 &&
        t.byteAt 0x0001FD == 0x02 && t.byteAt 0x0001FE == 0x80 && t.byteAt 0x0001FF == 0x01 := by
  decide

/-- V115. -/
theorem test_V115_irq_native :
    steps { native with pbr := 0x12, inputs := [irqLine], mem := [(0x00FFEE, 0x00), (0x00FFEF, 0xB0),
      (0x128000, 0xEA)] } fun t =>
      t.s == 0x01FB && t.pbr == 0x00 && t.pc == 0xB000 && t.p == 0x04 && t.byteAt 0x0001FE == 0x80 &&
        t.byteAt 0x0001FF == 0x12 := by
  decide

/-- V118. -/
theorem test_V118_nmi_masked_is_taken :
    steps { native with p := 0x04, inputs := [nmiEdge], mem := [(0x008000, 0xEA), (0x00FFEA, 0x00),
      (0x00FFEB, 0xC0)] } fun t =>
      t.s == 0x01FB && t.pc == 0xC000 && t.byteAt 0x0001FC == 0x04 && t.byteAt 0x0001FE == 0x80 := by
  decide

/-- V121. -/
theorem test_V121_rti_emulation :
    steps { emulation with s := 0x01FC, pc := 0x9000, p := 0x34, mem := [(0x0001FD, 0x00), (0x0001FE, 0x02),
      (0x0001FF, 0x80), (0x009000, 0x40)] } fun t =>
      t.s == 0x01FF && t.pc == 0x8002 && t.p == 0x30 := by
  decide

/-- V126. -/
theorem test_V126_wdm_skips_a_byte :
    steps { native with mem := [(0x008000, 0x42), (0x008001, 0xA9)] } fun t =>
      t.pc == 0x8002 := by
  decide

/-- V129. -/
theorem test_V129_rep_emulation_keeps_m_x :
    steps { emulation with p := 0x3F, mem := [(0x008000, 0xC2), (0x008001, 0x3F)] } fun t =>
      t.pc == 0x8002 && t.p == 0x30 := by
  decide

/-- V130. -/
theorem test_V130_sep_truncates_index :
    steps { native with x := 0xABCD, y := 0x1234, mem := [(0x008000, 0xE2), (0x008001, 0x10)] } fun t =>
      t.x == 0x00CD && t.y == 0x0034 && t.pc == 0x8002 && t.p == 0x10 := by
  decide

/-- V132. -/
theorem test_V132_xce_to_emulation :
    steps { native with c := 0xABCD, x := 0x1234, y := 0x5678, s := 0x1FF0, p := 0x01, mem := [(0x008000, 0xFB)]
      } fun t =>
      t.x == 0x0034 && t.y == 0x0078 && t.s == 0x01F0 && t.pc == 0x8001 && t.p == 0x30 && t.e := by
  decide

/-- V133. -/
theorem test_V133_xce_to_native :
    steps { emulation with s := 0x01F0, mem := [(0x008000, 0xFB)] } fun t =>
      t.pc == 0x8001 && t.p == 0x31 && !t.e := by
  decide

/-- V143. -/
theorem test_V143_pha_emulation_wrap :
    steps { emulation with c := 0x1234, s := 0x0100, mem := [(0x008000, 0x48)] } fun t =>
      t.s == 0x01FF && t.pc == 0x8001 && t.byteAt 0x000100 == 0x34 := by
  decide

/-- V145. -/
theorem test_V145_pla_emulation_wrap :
    steps { emulation with c := 0xAA00, mem := [(0x000100, 0x80), (0x000200, 0x01), (0x008000, 0x68)] } fun t =>
      t.c == 0xAA80 && t.s == 0x0100 && t.pc == 0x8001 && t.p == 0xB0 := by
  decide

/-- V147. -/
theorem test_V147_php_emulation :
    steps { emulation with p := 0xB1, mem := [(0x008000, 0x08)] } fun t =>
      t.s == 0x01FE && t.pc == 0x8001 && t.byteAt 0x0001FF == 0xB1 := by
  decide

/-- V150. -/
theorem test_V150_plp_truncates_index :
    steps { native with x := 0xFFFF, y := 0x8000, s := 0x01FE, mem := [(0x0001FF, 0x10), (0x008000, 0x28)] } fun
      t =>
      t.x == 0x00FF && t.y == 0x0000 && t.s == 0x01FF && t.pc == 0x8001 && t.p == 0x10 := by
  decide

/-- V152. -/
theorem test_V152_pei :
    steps { native with d := 0x0200, mem := [(0x000210, 0xCD), (0x000211, 0xAB), (0x008000, 0xD4),
      (0x008001, 0x10)] } fun t =>
      t.s == 0x01FD && t.pc == 0x8002 && t.byteAt 0x0001FE == 0xCD && t.byteAt 0x0001FF == 0xAB := by
  decide

/-- V153. -/
theorem test_V153_per_negative :
    steps { native with mem := [(0x008000, 0x62), (0x008001, 0xFD), (0x008002, 0xFF)] } fun t =>
      t.s == 0x01FD && t.pc == 0x8003 && t.byteAt 0x0001FF == 0x80 := by
  decide

/-- V154. -/
theorem test_V154_phd :
    steps { native with d := 0xBEEF, mem := [(0x008000, 0x0B)] } fun t =>
      t.s == 0x01FD && t.pc == 0x8001 && t.byteAt 0x0001FE == 0xEF && t.byteAt 0x0001FF == 0xBE := by
  decide

/-- V156. -/
theorem test_V156_phb :
    steps { native with dbr := 0x7E, mem := [(0x008000, 0x8B)] } fun t =>
      t.s == 0x01FE && t.pc == 0x8001 && t.byteAt 0x0001FF == 0x7E := by
  decide

/-- V157. -/
theorem test_V157_plb :
    steps { native with s := 0x01FE, dbr := 0x55, mem := [(0x0001FF, 0x00), (0x008000, 0xAB)] } fun t =>
      t.s == 0x01FF && t.dbr == 0x00 && t.pc == 0x8001 && t.p == 0x02 := by
  decide

/-- V158. -/
theorem test_V158_phk :
    steps { native with pbr := 0x7F, mem := [(0x7F8000, 0x4B)] } fun t =>
      t.s == 0x01FE && t.pc == 0x8001 && t.byteAt 0x0001FF == 0x7F := by
  decide

/-- V159. -/
theorem test_V159_phx_sixteen_bit :
    steps { native with x := 0xABCD, mem := [(0x008000, 0xDA)] } fun t =>
      t.s == 0x01FD && t.pc == 0x8001 && t.byteAt 0x0001FE == 0xCD && t.byteAt 0x0001FF == 0xAB := by
  decide

/-- V160. -/
theorem test_V160_phy_eight_bit :
    steps { native with y := 0x0042, p := 0x10, mem := [(0x008000, 0x5A)] } fun t =>
      t.s == 0x01FE && t.pc == 0x8001 && t.byteAt 0x0001FF == 0x42 := by
  decide

/-- V161. -/
theorem test_V161_plx_eight_bit :
    steps { native with s := 0x01FE, p := 0x10, mem := [(0x0001FF, 0x80), (0x008000, 0xFA)] } fun t =>
      t.x == 0x0080 && t.s == 0x01FF && t.pc == 0x8001 && t.p == 0x90 := by
  decide

/-- V162. -/
theorem test_V162_ply_zero :
    steps { native with y := 0x1111, s := 0x01FD, mem := [(0x0001FE, 0x00), (0x0001FF, 0x00), (0x008000, 0x7A)]
      } fun t =>
      t.y == 0x0000 && t.s == 0x01FF && t.pc == 0x8001 && t.p == 0x02 := by
  decide

/-- V163. -/
theorem test_V163_pea_leaves_page_one :
    steps { emulation with s := 0x0100, mem := [(0x008000, 0xF4), (0x008001, 0xCD), (0x008002, 0xAB)] } fun t =>
      t.s == 0x01FE && t.pc == 0x8003 && t.byteAt 0x0000FF == 0xCD && t.byteAt 0x000100 == 0xAB := by
  decide

/-- V164. -/
theorem test_V164_pld_leaves_page_one :
    steps { emulation with mem := [(0x000100, 0x99), (0x000101, 0x99), (0x000200, 0x34), (0x000201, 0x12),
      (0x008000, 0x2B)] } fun t =>
      t.s == 0x0101 && t.d == 0x1234 && t.pc == 0x8001 := by
  decide

/-- V165. -/
theorem test_V165_tax_copies_sixteen_bits :
    steps { native with c := 0xAB00, p := 0x20, mem := [(0x008000, 0xAA)] } fun t =>
      t.x == 0xAB00 && t.pc == 0x8001 && t.p == 0xA0 := by
  decide

/-- V166. -/
theorem test_V166_tay_eight_bit :
    steps { native with c := 0xAB80, p := 0x10, mem := [(0x008000, 0xA8)] } fun t =>
      t.y == 0x0080 && t.pc == 0x8001 && t.p == 0x90 := by
  decide

/-- V168. -/
theorem test_V168_txa_sixteen_bit_from_eight :
    steps { native with c := 0xFFFF, x := 0x0080, p := 0x10, mem := [(0x008000, 0x8A)] } fun t =>
      t.c == 0x0080 && t.pc == 0x8001 := by
  decide

/-- V169. -/
theorem test_V169_tya_sign :
    steps { native with y := 0x8000, mem := [(0x008000, 0x98)] } fun t =>
      t.c == 0x8000 && t.pc == 0x8001 && t.p == 0x80 := by
  decide

/-- V170. -/
theorem test_V170_txy_zero :
    steps { native with y := 0x0055, p := 0x10, mem := [(0x008000, 0x9B)] } fun t =>
      t.y == 0x0000 && t.pc == 0x8001 && t.p == 0x12 := by
  decide

/-- V171. -/
theorem test_V171_tyx :
    steps { native with y := 0x1234, mem := [(0x008000, 0xBB)] } fun t =>
      t.x == 0x1234 && t.pc == 0x8001 := by
  decide

/-- V172. -/
theorem test_V172_tcd :
    steps { native with c := 0x8000, p := 0x20, mem := [(0x008000, 0x5B)] } fun t =>
      t.d == 0x8000 && t.pc == 0x8001 && t.p == 0xA0 := by
  decide

/-- V173. -/
theorem test_V173_tdc :
    steps { native with c := 0x1234, p := 0x20, mem := [(0x008000, 0x7B)] } fun t =>
      t.c == 0x0000 && t.pc == 0x8001 && t.p == 0x22 := by
  decide

/-- V175. -/
theorem test_V175_tcs_emulation :
    steps { emulation with c := 0x12F0, mem := [(0x008000, 0x1B)] } fun t =>
      t.s == 0x01F0 && t.pc == 0x8001 := by
  decide

/-- V176. -/
theorem test_V176_tsc :
    steps { native with s := 0x8000, p := 0x20, mem := [(0x008000, 0x3B)] } fun t =>
      t.c == 0x8000 && t.pc == 0x8001 && t.p == 0xA0 := by
  decide

/-- V177. -/
theorem test_V177_tsx_eight_bit :
    steps { native with s := 0x1280, p := 0x10, mem := [(0x008000, 0xBA)] } fun t =>
      t.x == 0x0080 && t.pc == 0x8001 && t.p == 0x90 := by
  decide

/-- V179. -/
theorem test_V179_txs_native :
    steps { native with x := 0x0080, s := 0x1FFF, p := 0x10, mem := [(0x008000, 0x9A)] } fun t =>
      t.s == 0x0080 && t.pc == 0x8001 := by
  decide

/-- V180. -/
theorem test_V180_xba_flags :
    steps { native with c := 0x80FF, mem := [(0x008000, 0xEB)] } fun t =>
      t.c == 0xFF80 && t.pc == 0x8001 && t.p == 0x80 := by
  decide

/-- V182. -/
theorem test_V182_mvn_first_of_two :
    steps { native with c := 0x0001, x := 0xFFFF, mem := [(0x008000, 0x54), (0x008001, 0x02), (0x008002, 0x01),
      (0x010000, 0x22), (0x01FFFF, 0x11)] } fun t =>
      t.c == 0x0000 && t.x == 0x0000 && t.y == 0x0001 && t.dbr == 0x02 && t.byteAt 0x020000 == 0x11 := by
  decide

/-! ### Witnesses: a state and operands that meet the hypotheses of each obligation -/

/-- The native base state with 8-bit accumulator and index registers. -/
def native8 : State := { native with p := 0x30 }

/-- The native base state in decimal mode, with a valid BCD accumulator. -/
def decimal : State := { native with p := 0x08, c := 0x1999 }

/-- The next state of a step, the state itself if there is none. -/
def stepped (s : State) : State :=
  match step s with
  | .next t => t
  | _ => s

/-- The next state of an instruction, the state itself if there is none. -/
def executed (i : Instr) (s : State) : State :=
  match exec i s with
  | .next t => t
  | _ => s

/-- O1, both widths of an immediate. -/
theorem witness_DecodeEncode :
    (Instr.adcImm (.byte 0xFF)).wf true true = true ∧ (Instr.adcImm (.word 0xFFFF)).wf false true = true ∧
      (Instr.ldyImm (.word 0)).wf true false = true ∧ (Instr.jsl 0xFFFFFF).wf true true = true := by
  decide

/-- O2, both widths of an immediate. -/
theorem witness_EncodeDecode :
    decode true true [0xA2, 0xFF, 0xFF] = .ok (.ldxImm (.byte 0xFF), [0xFF]) ∧
      decode true false [0xA2, 0xFF, 0xFF] = .ok (.ldxImm (.word 0xFFFF), []) := by
  decide

/-- O5: a NOP; a JSL under a masked IRQ. -/
theorem witness_StepRunsDecodedInstruction :
    State.undisturbed { native with mem := [(0x8000, 0xEA)] } ∧
      decodes false false (State.nextInput { native with mem := [(0x8000, 0xEA)] }).fetchBytes = some (.nop, 3) ∧
      State.undisturbed { emulation with p := 0x34, inputs := [irqLine] } ∧
      decodes true true (State.nextInput { emulation with
        p := 0x34, inputs := [irqLine],
        mem := [(0x8000, 0x22), (0x8001, 0x56), (0x8002, 0x34), (0x8003, 0x12)] }).fetchBytes =
        some (.jsl 0x123456, 0) := by
  decide

/-- O6: an instruction that wraps at the end of its bank. -/
theorem witness_StepFetchesAtProgramCounter :
    ∃ s : State, s.undisturbed ∧ (Instr.ldaAbs 0x1234).wf (s.flag .m) (s.flag .x) = true ∧
      (∀ (k : Nat) (h : k < (encode (.ldaAbs 0x1234)).length),
        s.nextInput.readByte .fetch (BitVec.ofNat 24 (s.pbr.toNat * 65536 + (s.pc.toNat + k) % 65536)) =
          (encode (.ldaAbs 0x1234))[k]) :=
  ⟨{ native with pc := 0xFFFE, mem := [(0x0000, 0x12), (0xFFFE, 0xAD), (0xFFFF, 0x34)] }, by decide, by decide,
    by decide⟩

/-- O6: JSL and JSR `(abs,X)`, with the byte fetched after the pushes unchanged by them. -/
theorem witness_StepFetchesAtProgramCounter_late :
    ∃ s u : State, s.undisturbed ∧ u.undisturbed ∧
      (∀ (k : Nat) (h : k < (encode (.jsl 0x561234)).length),
        s.nextInput.readByte .fetch (BitVec.ofNat 24 (s.pbr.toNat * 65536 + (s.pc.toNat + k) % 65536)) =
          (encode (.jsl 0x561234))[k]) ∧
      (s.nextInput.pushN8 s.pbr).instrByte 3 = s.nextInput.instrByte 3 ∧
      (∀ (k : Nat) (h : k < (encode (.jsrAbsXInd 0x1234)).length),
        u.nextInput.readByte .fetch (BitVec.ofNat 24 (u.pbr.toNat * 65536 + (u.pc.toNat + k) % 65536)) =
          (encode (.jsrAbsXInd 0x1234))[k]) ∧
      (u.nextInput.pushN16 (u.pc + 2)).instrByte 2 = u.nextInput.instrByte 2 :=
  ⟨{ native with mem := [(0x8000, 0x22), (0x8001, 0x34), (0x8002, 0x12), (0x8003, 0x56)] },
    { native with mem := [(0x8000, 0xFC), (0x8001, 0x34), (0x8002, 0x12)] }, by decide, by decide, by decide,
    by decide, by decide, by decide⟩

/-- O8: a step in each mode from a state with the invariants. -/
theorem witness_StepKeepsInvariants :
    native.Inv ∧ step { native with mem := [(0x8000, 0xEA)] } =
        .next { native with pc := 0x8001, mem := [(0x8000, 0xEA)] } ∧
      emulation.Inv ∧ step { emulation with mem := [(0x8000, 0xEA)] } =
        .next { emulation with pc := 0x8001, mem := [(0x8000, 0xEA)] } :=
  ⟨by decide, rfl, by decide, rfl⟩

/-- O9: a memory with a reset vector, and device addresses elsewhere. -/
theorem witness_ResetState :
    Memory.wf [(0xFFFC, 0x34), (0xFFFD, 0x12)] = true ∧
      (State.start [(0xFFFC, 0x34), (0xFFFD, 0x12)] [(0xD000, 0xD0FF)] [irqLine]).isDevice 0x00FFFC = false ∧
      (State.start [(0xFFFC, 0x34), (0xFFFD, 0x12)] [(0xD000, 0xD0FF)] [irqLine]).isDevice 0x00FFFD = false ∧
      (State.start [(0xFFFC, 0x34), (0xFFFD, 0x12)] [(0xD000, 0xD0FF)] [irqLine]).pc = 0x1234 := by
  decide

/-- O10, O11, O31, O34, O36, O40 to O42, O46, O50, O51: states with the mode invariants, in each mode and width. -/
theorem witness_modeOk : native.modeOk ∧ native8.modeOk ∧ emulation.modeOk ∧
    State.modeOk { native with x := 0xFFFF, y := 0xFFFF, s := 0xFFFF } := by
  decide

/-- O10 to O12: what may be written is not everything. -/
theorem witness_frames : Flag.d ∉ flagsWritten (.adcImm (.byte 1)) ∧ Reg.x ∉ regsWritten .pla ∧
    (0x0200 : Addr) ∉ stores native .pha ∧ (0x01FE : Addr) ∈ stores native .pha := by
  decide

/-- O13. -/
theorem witness_ProgramCounterAdvances : redirects (.ldaLong 0) = false ∧ redirects .wai = false := by decide

/-- O14: XCE leaves emulation mode. -/
theorem witness_EmulationBitChangesOnlyByXce :
    ∃ s t : State, s.input.reset = false ∧ step s = .next t ∧ t.e ≠ s.e :=
  ⟨{ emulation with mem := [(0x8000, 0xFB)] }, stepped { emulation with mem := [(0x8000, 0xFB)] }, by decide, rfl,
    by decide⟩

/-- O15, O16: an immediate and a memory operand in binary mode. -/
theorem witness_AdcBinary_SbcBinary :
    readRow (.adcImm (.byte 0xFF)) = some (.adc, .imm (.byte 0xFF)) ∧
      readRow (.adcAbsX 0xFFFF) = some (.adc, .mem (.absX 0xFFFF)) ∧
      readRow (.sbcImm (.word 0)) = some (.sbc, .imm (.word 0)) ∧
      readRow (.sbcSrIndY 0xFF) = some (.sbc, .mem (.srIndY 0xFF)) ∧ native.flag .d = false := by
  decide

/-- O17, O18: valid BCD at both widths, at the ends of the range. -/
theorem witness_AdcDecimal_SbcDecimal :
    readRow (.adcImm (.word 0x9999)) = some (.adc, .imm (.word 0x9999)) ∧
      readRow (.sbcImm (.word 0x9999)) = some (.sbc, .imm (.word 0x9999)) ∧ decimal.flag .d = true ∧
      bcdValid (decimal.areg decimal.wA) = true ∧
      bcdValid ((Operand.imm (.word 0x9999)).value decimal decimal.wA) = true ∧
      bcdValid (State.areg { decimal with p := 0x28, c := 0xFF99 } .w8) = true ∧
      bcdValid ((Operand.imm (.byte 0)).value { decimal with p := 0x28 } .w8) = true := by
  decide

/-- O19: an invalid operand, and an invalid accumulator. -/
theorem witness_DecimalInvalid :
    readRow (.adcImm (.word 0x000A)) = some (.adc, .imm (.word 0x000A)) ∧
      (bcdValid (decimal.areg decimal.wA) && bcdValid ((Operand.imm (.word 0x000A)).value decimal decimal.wA)) =
        false ∧
      readRow (.sbcImm (.word 0)) = some (.sbc, .imm (.word 0)) ∧ State.flag { decimal with c := 0xA000 } .d = true ∧
      (bcdValid (State.areg { decimal with c := 0xA000 } .w16) &&
        bcdValid ((Operand.imm (.word 0)).value decimal .w16)) = false := by
  decide

/-- O20: one comparison of each register. -/
theorem witness_Compare :
    readRow (.cmpDp 0) = some (.cmp, .mem (.dp 0)) ∧ readRow (.cpxImm (.byte 1)) = some (.cpx, .imm (.byte 1)) ∧
      readRow (.cpyAbs 0) = some (.cpy, .mem (.abs 0)) ∧
      (ReadOp.cmp, (0 : Word)) ∈ [(.cmp, native.areg native.wA), (.cpx, trunc native.wX native.x),
        (.cpy, trunc native.wX native.y)] := by
  decide

/-- O21 to O23: one row of each operation. -/
theorem witness_BitTest_LogicAndLoad_LoadIndex :
    readRow (.bitImm (.byte 1)) = some (.bit, .imm (.byte 1)) ∧ readRow (.bitAbsX 1) = some (.bit, .mem (.absX 1)) ∧
      readRow (.oraDpIndL 1) = some (.ora, .mem (.dpIndL 1)) ∧ readRow (.andSr 1) = some (.and, .mem (.sr 1)) ∧
      readRow (.eorLongX 1) = some (.eor, .mem (.longX 1)) ∧ readRow (.ldaDpXInd 1) = some (.lda, .mem (.dpXInd 1)) ∧
      readRow (.ldxDpY 1) = some (.ldx, .mem (.dpY 1)) ∧ readRow (.ldyAbsX 1) = some (.ldy, .mem (.absX 1)) := by
  decide

/-- O24: one row of each store. -/
theorem witness_Stores :
    storeRow (.staDpIndLY 1) = some (.sta, .dpIndLY 1) ∧ storeRow (.stxDpY 1) = some (.stx, .dpY 1) ∧
      storeRow (.styDpX 1) = some (.sty, .dpX 1) ∧ storeRow (.stzAbsX 1) = some (.stz, .absX 1) := by
  decide

/-- O25: the accumulator forms. -/
theorem witness_ModifyAccumulator :
    modifyRow .aslAcc = some (.asl, none) ∧ modifyRow .lsrAcc = some (.lsr, none) ∧
      modifyRow .rolAcc = some (.rol, none) ∧ modifyRow .rorAcc = some (.ror, none) ∧
      modifyRow .incAcc = some (.inc, none) ∧ modifyRow .decAcc = some (.dec, none) := by
  decide

/-- O26, O27: one row of each operation on memory. -/
theorem witness_ModifyMemory_TestAndSetBits :
    modifyRow (.aslDp 1) = some (.asl, some (.dp 1)) ∧ modifyRow (.lsrAbs 1) = some (.lsr, some (.abs 1)) ∧
      modifyRow (.rolDpX 1) = some (.rol, some (.dpX 1)) ∧ modifyRow (.rorAbsX 1) = some (.ror, some (.absX 1)) ∧
      modifyRow (.incDp 1) = some (.inc, some (.dp 1)) ∧ modifyRow (.decAbs 1) = some (.dec, some (.abs 1)) ∧
      testRow (.tsbDp 1) = some (true, .dp 1) ∧ testRow (.trbAbs 1) = some (false, .abs 1) := by
  decide

/-- O28 to O30: the pairs the lists hold, at 8-bit index registers. -/
theorem witness_Index_and_Transfers :
    (Instr.dex, 255) ∈ [(Instr.inx, (native8.x.toNat + 1) % 2 ^ native8.wX.bits),
        (.dex, (native8.x.toNat + 2 ^ native8.wX.bits - 1) % 2 ^ native8.wX.bits)] ∧
      (Instr.iny, 1) ∈ [(Instr.iny, (native8.y.toNat + 1) % 2 ^ native8.wX.bits)] ∧
      (Instr.tsx, (0x01FF : Word)) ∈ [(Instr.tax, native.c), (.tsx, native.s), (.tyx, native.y)] ∧
      (Instr.txy, (0 : Word)) ∈ [(Instr.tay, native.c), (.txy, native.x)] ∧
      (Instr.tsc, Width.w16, (0x01FF : Word)) ∈ [(Instr.txa, native.wA, native.x), (.tsc, .w16, native.s)] := by
  decide

/-- O33, O34: a push of each width, and a pushed word. -/
theorem witness_PushRegister_PushWord :
    pushRow native8 .pha = some [0] ∧ pushRow { native with x := 0x1234 } .phx = some [0x12, 0x34] ∧
      pushRow native .php = some [0] ∧ pushNRow native (.per 0xFFFD) = some 0x8000 ∧
      pushNRow native (.pea 0xFFFF) = some 0xFFFF ∧ pushNRow native .phd = some 0 := by
  decide

/-- O37, O49: rows of branches and of one-flag instructions. -/
theorem witness_ConditionalBranches_FlagInstructions :
    branchRow (.beq 0x80) = some (.z, true, 0x80) ∧ branchRow (.bvc 0x7F) = some (.v, false, 0x7F) ∧
      flagRow .clv = some (.v, false) ∧ flagRow .sei = some (.i, true) := by
  decide

/-- O43, JSR in each mode: the state after the call, with another accumulator, is a later state. -/
theorem witness_CallThenReturn_jsr :
    ∀ s ∈ [native, { emulation with s := 0x0100 }],
      exec (.jsrAbs 0x9000) s = .next (executed (.jsrAbs 0x9000) s) ∧
        (executed (.jsrAbs 0x9000) s).e = s.e ∧
        ∀ a ∈ s.pushAddrs 2, State.readByte { executed (.jsrAbs 0x9000) s with c := 5 } .pull a =
          (executed (.jsrAbs 0x9000) s).byteAt a := by
  intro s hs
  simp only [List.mem_cons, List.not_mem_nil, or_false] at hs
  rcases hs with rfl | rfl
  · exact ⟨rfl, rfl, fun _ _ => rfl⟩
  · exact ⟨rfl, rfl, fun _ _ => rfl⟩

/-- O43, JSL in each mode, in emulation mode with SL at the bound. -/
theorem witness_CallThenReturn_jsl :
    ∀ s ∈ [native, { emulation with s := 0x0103 }],
      (s.e = false ∨ (hiByte s.s = 0x01 ∧ 3 ≤ (loByte s.s).toNat)) ∧
        exec (.jsl 0x123456) s = .next (executed (.jsl 0x123456) s) ∧
        (executed (.jsl 0x123456) s).e = s.e ∧
        State.modeOk { executed (.jsl 0x123456) s with c := 5 } ∧
        ∀ a ∈ s.pushNAddrs 3, State.readByte { executed (.jsl 0x123456) s with c := 5 } .pull a =
          (executed (.jsl 0x123456) s).byteAt a := by
  intro s hs
  simp only [List.mem_cons, List.not_mem_nil, or_false] at hs
  rcases hs with rfl | rfl
  · exact ⟨by decide, rfl, rfl, by decide, fun _ _ => rfl⟩
  · exact ⟨by decide, rfl, rfl, by decide, fun _ _ => rfl⟩

/-- O44. -/
theorem witness_SoftwareInterrupts :
    (Instr.brk 0xEA, (0xFFE6 : Word)) ∈
        [(Instr.brk 0xEA, if native.e then 0xFFFE else 0xFFE6), (.cop 0xEA, if native.e then 0xFFF4 else 0xFFE4)] ∧
      (Instr.cop 0xEA, (0xFFF4 : Word)) ∈
        [(Instr.brk 0xEA, if emulation.e then 0xFFFE else 0xFFE6),
          (.cop 0xEA, if emulation.e then 0xFFF4 else 0xFFE4)] := by
  decide

/-- O45: an NMI latched, an NMI edge with an IRQ beside it, an IRQ that is not masked and ends a wait. -/
theorem witness_HardwareInterrupts :
    State.input { native with nmiPending := true } = HostInput.idle ∧
      State.input { emulation with inputs := [nmiAndIrq] } = nmiAndIrq ∧
      State.input { native with waiting := true, inputs := [irqLine] } = irqLine ∧
      native.stopped = false ∧ native.flag .i = false := by
  decide

/-- O47: an IRQ taken in each mode, and the state after it as the handler's last. -/
theorem witness_InterruptThenReturn_irq :
    ∀ s ∈ [{ native with inputs := [irqLine] }, { emulation with inputs := [irqLine] }],
      s.modeOk ∧ (stepped s).modeOk ∧ s.input.reset = false ∧ s.stopped = false ∧ s.input.irq = true ∧
        s.flag .i = false ∧ step s = .next (stepped s) := by
  intro s hs
  simp only [List.mem_cons, List.not_mem_nil, or_false] at hs
  rcases hs with rfl | rfl
  · exact ⟨by decide, by decide, by decide, by decide, by decide, by decide, rfl⟩
  · exact ⟨by decide, by decide, by decide, by decide, by decide, by decide, rfl⟩

/-- O47: an NMI edge, an NMI latched, BRK and COP; the state after each as the handler's last. -/
theorem witness_InterruptThenReturn_others :
    step { native with inputs := [nmiEdge] } =
        .next (stepped { native with inputs := [nmiEdge] }) ∧
      State.modeOk (stepped { native with inputs := [nmiEdge] }) ∧
      step { emulation with nmiPending := true } = .next (stepped { emulation with nmiPending := true }) ∧
      State.modeOk (stepped { emulation with nmiPending := true }) ∧
      exec (.brk 0) native = .next (executed (.brk 0) native) ∧ State.modeOk (executed (.brk 0) native) ∧
      exec (.cop 0) emulation = .next (executed (.cop 0) emulation) ∧ State.modeOk (executed (.cop 0) emulation) :=
  ⟨rfl, by decide, rfl, by decide, rfl, by decide, rfl, by decide⟩

/-- O52, O53: both directions; counts of one byte and of 65536 bytes. -/
theorem witness_BlockMoves :
    (Instr.mvn 1 0, true) ∈ [(Instr.mvn 1 0, true), (.mvp 1 0, false)] ∧
      (Instr.mvp 1 0, false) ∈ [(Instr.mvn 1 0, true), (.mvp 1 0, false)] ∧ (1 : Byte) ≠ 0 ∧
      native.flag .x = false ∧ native.c.toNat = 0 ∧ State.flag { native with c := 0xFFFF } .x = false := by
  decide

/-- O54: a reset while stopped. -/
theorem witness_ResetEvent :
    (State.input { native with stopped := true, inputs := [{ nmiAndIrq with reset := true }] }).reset = true := by decide

/-- O55: stopped with an NMI edge; waiting with nothing; waiting with a masked IRQ. -/
theorem witness_StoppedAndWaiting :
    (State.input { native with stopped := true, inputs := [nmiAndIrq] }).reset = false ∧
      (State.input { native with waiting := true }).irq = false ∧
      (State.input { native with p := 0x04, waiting := true, inputs := [irqLine] }).irq = true ∧
      State.flag { native with p := 0x04, waiting := true } .i = true := by
  decide

/-- O56 to O58: a form of each list, where the address wraps. -/
theorem witness_Addresses :
    (MemForm.longX 0xFFFFFF, 1) ∈
        [(MemForm.longX 0xFFFFFF, ((0xFFFFFF : Addr).toNat + (2 : Word).toNat) % 2 ^ 24)] ∧
      (State.loc { native with x := 2 } (.longX 0xFFFFFF)).addr = 1 ∧
      (State.loc { emulation with x := 0x20 } (.dpX 0xF0)).addr = 0x10 ∧
      (State.loc { native with x := 0x20 } (.dpX 0xF0)).addr = 0x110 ∧
      (State.loc { native with s := 0xFFFF } (.sr 1)).addr = 0 ∧
      (State.loc { native with y := 1, mem := [(0x10, 0xFF), (0x11, 0xFF)] } (.dpIndY 0x10)).addr = 0x010000 := by
  decide

/-- The native base state with device addresses 00D000 to 00D0FF and some answers in the present step. -/
def withDevice (io : List Answer) : State := { native with ioRegion := [(0xD000, 0xD0FF)], io := io }

/-- O59: stack addresses that are device addresses, and that are none. -/
theorem witness_StackPrimitives :
    native.isDevice (native.pushAddr 0) = false ∧ native.isDevice (native.pushAddr 1) = false ∧
      native.isDevice (bankAddr 0 (native.s - 1)) = false ∧
      State.isDevice { withDevice [] with s := 0xD000 } (bankAddr 0 0xD000) = true := by
  decide

/-- O60: memories in canonical form; the ends of the device addresses; an answer listed, listed twice and not listed. -/
theorem witness_MemoryIsItsContents :
    Memory.wf [] = true ∧ Memory.wf [(0, 1), (0xFFFFFF, 0xFF)] = true ∧ Memory.lookup [(0, 1)] 0 = some 1 ∧
      Memory.lookup [(0, 1)] 1 = none ∧ (withDevice []).isDevice 0x00D000 = true ∧
      (withDevice []).isDevice 0x00D0FF = true ∧ (withDevice []).isDevice 0x00D100 = false ∧
      (withDevice []).isDevice 0x01D000 = false ∧
      (withDevice [⟨.pull, 0x00D000, 1⟩, ⟨.data, 0x00D000, 2⟩, ⟨.data, 0x00D000, 3⟩]).readByte .data 0x00D000 = 2 ∧
      answerTo [⟨.data, 0x00D000, 2⟩] .fetch 0x00D000 = none := by decide

/-- Two reads of one device address within an instruction have two answers (R61, R73): the pointer of LDA `(dp)` names
its own low byte. -/
theorem test_device_answers_each_read :
    steps { native with
      d := 0xD000, p := 0x20, ioRegion := [(0xD000, 0xD0FF)],
      inputs := [{ HostInput.idle with io := [⟨.pointer, 0x00D010, 0x10⟩, ⟨.pointer, 0x00D011, 0xD0⟩,
        ⟨.data, 0x00D010, 0x7F⟩] }],
      mem := [(0x8000, 0xB2), (0x8001, 0x10), (0xD010, 0x22)] } fun t =>
      t.c == 0x007F && t.inputs == [] := by decide

/-- A read of a device address after the instruction's own store there takes the platform's answer (R61): the pointer
of JSR `(abs,X)` lies where the return offset is pushed. -/
theorem test_device_answers_after_store :
    steps { native with
      s := 0xD001, ioRegion := [(0xD000, 0xD0FF)],
      inputs := [{ HostInput.idle with io := [⟨.pointer, 0x00D000, 0x34⟩, ⟨.pointer, 0x00D001, 0x12⟩] }],
      mem := [(0x8000, 0xFC), (0x8001, 0x00), (0x8002, 0xD0)] } fun t =>
      t.pc == 0x1234 && t.byteAt 0x00D001 == 0x80 && t.byteAt 0x00D000 == 0x02 := by decide

/-- A table word placed where the step fetches from device addresses is what the next step runs. -/
theorem test_withFetchWord_device :
    steps (State.withFetchWord { State.reset with ioRegion := [(0, 0xFFFFFF)] } 16 0x7FA9) fun t => t.c == 0x007F := by
  decide

/-- A load from a location that holds no value takes the draw of its address (R81). -/
theorem test_load_undefined (s : State) :
    s.mem = [] → s.isDevice 0x123456 = false →
      (s.operand (.long 0x123456) .w8) = (Config.undefinedByte 0x123456).setWidth 16 := by
  intro h h'
  simp only [State.operand, State.readLoc, State.loc, State.readByte_of_memory h', State.byteAt, h]
  rfl

end Sys2Proof.Tests
end

