-- ==== Sys2Proof/Proofs/FlagsFrame.lean ====
section
/-! SUPPORT. The flag frame (R7, R102): first for each shape of instruction, through the law of its rows; then for the
instructions with a meaning of their own; then for all. -/

namespace Sys2Proof.Machine

/-- The instruction answers a next state that keeps every flag outside its row's `flags` string. -/
def ExecKeepsFlags (s : State) (i : Instr) : Prop := ∃ t, exec i s = .next t ∧ keepsFlags s t (flagsWritten i)

/-! ### Operations that keep flags -/

theorem keepsFlags_of_p {s t : State} (h : t.p = s.p) (written : List Flag) : keepsFlags s t written := by
  intro f _
  simp only [State.flag, h]

theorem keepsFlags.trans {s t u : State} {written : List Flag} (hst : keepsFlags s t written)
    (htu : keepsFlags t u written) : keepsFlags s u written :=
  fun f hf => (htu f hf).trans (hst f hf)

theorem keepsFlags.mono {s t : State} {l written : List Flag} (h : keepsFlags s t l) (hl : l ⊆ written) :
    keepsFlags s t written :=
  fun f hf => h f fun hm => hf (hl hm)

theorem keepsFlags_setFlag_of_p {s t : State} (h : t.p = s.p) (f : Flag) (b : Bool) :
    keepsFlags s (t.setFlag f b) [f] := by
  intro g hg
  rw [State.flag_setFlag, if_neg (by simpa using hg)]
  exact keepsFlags_of_p h [f] g hg

theorem keepsFlags_setNZ_of_p {s t : State} (h : t.p = s.p) (w : Width) (v : Word) :
    keepsFlags s (t.setNZ w v) [.n, .z] :=
  (keepsFlags_of_p h _).trans (State.keepsFlags_setNZ w v t)

/-- Taking an event writes i and d only (R348). -/
theorem keepsFlags_interrupt_of_p {s t : State} (h : t.p = s.p) (k : Event) :
    keepsFlags s (t.interrupt k) [.d, .i] := by
  have hd : keepsFlags t (t.interrupt k) [.d, .i] := by
    intro f hf
    show State.flag (((t.pushFrame k).setFlag .i true).setFlag .d false) f = _
    simp only [List.mem_cons, List.not_mem_nil, or_false, not_or] at hf
    simp [State.flag_setFlag, hf]
  exact (keepsFlags_of_p h _).trans hd

/-- In emulation mode the mode invariants hold m and x at 1 already, so `Normalize` adds no flag to those written. -/
theorem keepsFlags_normalize {s t : State} (hs : s.modeOk) (he : t.e = s.e) {written : List Flag}
    (h : keepsFlags s t written) : keepsFlags s t.normalize written := by
  intro f hf
  rw [State.flag_normalize, h f hf, he]
  cases hE : s.e with
  | false => simp
  | true =>
    obtain ⟨hm, hx, -⟩ := hs.1 hE
    cases f <;> simp [hm, hx]

/-- XCE writes the carry, and `Normalize` at most m and x (R259). -/
theorem keepsFlags_exchangeCE_of_p {s t : State} (h : t.p = s.p) : keepsFlags s t.exchangeCE [.m, .x, .c] := by
  intro f hf
  simp only [List.mem_cons, List.not_mem_nil, or_false, not_or] at hf
  obtain ⟨hm, hx, hc⟩ := hf
  have hcarry : (t.setFlag .c t.e).flag f = s.flag f := keepsFlags_setFlag_of_p h .c t.e f (by simpa using hc)
  rw [State.exchangeCE, State.flag_normalize, beq_false_of_ne hm, beq_false_of_ne hx, Bool.or_false, Bool.and_false,
    Bool.or_false]
  exact hcarry

theorem not_mem_allFlags {f : Flag} : ¬ f ∉ [Flag.n, .v, .m, .x, .d, .i, .z, .c] := by cases f <;> decide

/-! ### The flags strings of the rows -/

theorem flagsWritten_of_readRow {i : Instr} {op : ReadOp} {o : Operand} (h : readRow i = some (op, o)) :
    flagsWritten i = op.flags o.isImm := by
  cases i <;> cases h <;> rfl

theorem flagsWritten_of_modifyRow {i : Instr} {op : ModifyOp} {o : Option MemForm} (h : modifyRow i = some (op, o)) :
    flagsWritten i = op.flags := by
  cases i <;> cases h <;> rfl

theorem flagsWritten_of_testRow {i : Instr} {r : Bool × MemForm} (h : testRow i = some r) : flagsWritten i = [.z] := by
  cases i <;> cases h <;> rfl

theorem flagsWritten_of_flagRow {i : Instr} {f : Flag} {b : Bool} (h : flagRow i = some (f, b)) :
    flagsWritten i = [f] := by
  cases i <;> cases h <;> rfl

/-! ### The frame, by how the next state is made -/

section
variable {i : Instr} {s t : State}

theorem execKeepsFlags_of_p (h : exec i s = .next t) (hp : t.p = s.p) : ExecKeepsFlags s i :=
  ⟨t, h, keepsFlags_of_p hp _⟩

theorem execKeepsFlags_of_setNZ {w : Width} {v : Word} (h : exec i s = .next (t.setNZ w v)) (hp : t.p = s.p)
    (hw : flagsWritten i = [.n, .z]) : ExecKeepsFlags s i :=
  ⟨_, h, by rw [hw]; exact keepsFlags_setNZ_of_p hp w v⟩

theorem execKeepsFlags_of_normalize (hs : s.modeOk) (h : exec i s = .next t.normalize) (he : t.e = s.e)
    (hk : keepsFlags s t (flagsWritten i)) : ExecKeepsFlags s i :=
  ⟨_, h, keepsFlags_normalize hs he hk⟩

end

/-! ### The frame, row by row -/

theorem execKeepsFlags_of_readRow {i : Instr} {op : ReadOp} {o : Operand} (h : readRow i = some (op, o)) (s : State) :
    ExecKeepsFlags s i := by
  refine ⟨_, exec_of_readRow h s, ?_⟩
  rw [flagsWritten_of_readRow h]
  exact (keepsFlags_of_p (State.advance_p _ s) _).trans (ReadOp.keepsFlags_apply op _ _ _)

theorem execKeepsFlags_of_storeRow {i : Instr} {op : StoreOp} {f : MemForm} (h : storeRow i = some (op, f))
    (s : State) : ExecKeepsFlags s i :=
  execKeepsFlags_of_p (exec_of_storeRow h s) (by simp)

/-- A modifying operation, its result put away with the flags kept, and n and z set. -/
theorem keepsFlags_modify (op : ModifyOp) (v : Word) (w : Width) {s t u : State} (ht : t.p = s.p)
    (hu : u.p = (op.apply t v).2.p) : keepsFlags s (u.setNZ w (op.apply t v).1) op.flags := by
  have hnz : [Flag.n, .z] ⊆ op.flags := by cases op <;> simp [ModifyOp.flags]
  have hop : keepsFlags s (op.apply t v).2 op.flags := (keepsFlags_of_p ht _).trans (op.keepsFlags_apply v t)
  exact hop.trans ((keepsFlags_setNZ_of_p hu w _).mono hnz)

theorem execKeepsFlags_of_modifyRow {i : Instr} {op : ModifyOp} {o : Option MemForm} (h : modifyRow i = some (op, o))
    (s : State) : ExecKeepsFlags s i := by
  rw [ExecKeepsFlags, flagsWritten_of_modifyRow h]
  cases o with
  | none => exact ⟨_, exec_of_modifyRow_acc h s, keepsFlags_modify op _ _ (State.advance_p _ s) (by simp)⟩
  | some f => exact ⟨_, exec_of_modifyRow_mem h s, keepsFlags_modify op _ _ (State.advance_p _ s) (by simp)⟩

theorem execKeepsFlags_of_testRow {i : Instr} {set : Bool} {f : MemForm} (h : testRow i = some (set, f)) (s : State) :
    ExecKeepsFlags s i := by
  refine ⟨_, exec_of_testRow h s, ?_⟩
  rw [flagsWritten_of_testRow h]
  exact (keepsFlags_setFlag_of_p (State.advance_p _ s) .z _).trans (keepsFlags_of_p (State.writeBack_p _ _ _ _) _)

theorem State.branch_keepsP (taken : Bool) (rel : Byte) (s : State) :
    ∃ t, s.branch taken rel = .next t ∧ t.p = s.p := by
  cases taken <;> exact ⟨_, rfl, rfl⟩

theorem execKeepsFlags_of_branch {i : Instr} {s : State} {taken : Bool} {rel : Byte}
    (h : exec i s = s.branch taken rel) : ExecKeepsFlags s i := by
  obtain ⟨t, ht, hp⟩ := s.branch_keepsP taken rel
  exact execKeepsFlags_of_p (h.trans ht) hp

theorem execKeepsFlags_of_flagRow {i : Instr} {f : Flag} {b : Bool} (h : flagRow i = some (f, b)) (s : State) :
    ExecKeepsFlags s i := by
  refine ⟨_, exec_of_flagRow h s, ?_⟩
  rw [flagsWritten_of_flagRow h]
  exact keepsFlags_setFlag_of_p (State.advance_p _ s) f b

theorem execKeepsFlags_of_pushRow {i : Instr} {bytes : List Byte} {s : State} (h : pushRow s i = some bytes) :
    ExecKeepsFlags s i :=
  execKeepsFlags_of_p (exec_of_pushRow h) (by rw [pushList_eq]; rfl)

theorem execKeepsFlags_of_pushNRow {i : Instr} {v : Word} {s : State} (hs : s.modeOk) (h : pushNRow s i = some v) :
    ExecKeepsFlags s i :=
  execKeepsFlags_of_normalize hs (exec_of_pushNRow h) (by rw [pushNList_eq]; rfl)
    (keepsFlags_of_p (by rw [pushNList_eq]; rfl) _)

/-! ### Instructions with a meaning of their own -/

/-- Jumps, calls, returns and block moves leave `P` alone; increments, transfers and pulls set n and z; where
`Normalize` ends the instruction, the mode invariants say what it keeps. -/
theorem execKeepsFlags_of_noRow {i : Instr} {s : State} (hs : s.modeOk) (hread : readRow i = none)
    (hstore : storeRow i = none) (hmodify : modifyRow i = none) (htest : testRow i = none)
    (hbranch : branchRow i = none) (hflag : flagRow i = none) (hpush : pushRow s i = none)
    (hpushN : pushNRow s i = none) : ExecKeepsFlags s i := by
  cases i
  case brk | cop => exact ⟨_, rfl, keepsFlags_interrupt_of_p (State.advance_p 2 s) _⟩
  case bra => exact execKeepsFlags_of_branch rfl
  case brl | jmpAbs | jmpAbsInd | jmpAbsXInd | jmlLong | jmlAbsIndL | jsrAbs | rts | mvn | mvp | nop | wdm | stp
      | wai =>
    exact execKeepsFlags_of_p rfl rfl
  case jsl | jsrAbsXInd | rtl | tcs | txs =>
    exact execKeepsFlags_of_normalize hs rfl (by simp) (keepsFlags_of_p (by simp) _)
  case inx | iny | dex | dey | tax | tay | tsx | txa | txy | tya | tyx | tdc | tsc | tcd | xba | plb =>
    exact execKeepsFlags_of_setNZ rfl rfl rfl
  case pla | plx | ply => exact execKeepsFlags_of_setNZ rfl (State.pullW_p _ (s.advance 1)) rfl
  case pld => exact execKeepsFlags_of_normalize hs rfl (by simp) (keepsFlags_setNZ_of_p (by simp) _ _)
  case plp | rti | rep | sep => exact ⟨_, rfl, fun _ hf => absurd hf not_mem_allFlags⟩
  case xce => exact ⟨_, rfl, keepsFlags_exchangeCE_of_p (State.advance_p 1 s)⟩
  all_goals contradiction

theorem execKeepsFlags (i : Instr) {s : State} (hs : s.modeOk) : ExecKeepsFlags s i := by
  cases hread : readRow i with
  | some r => exact execKeepsFlags_of_readRow hread s
  | none =>
  cases hstore : storeRow i with
  | some r => exact execKeepsFlags_of_storeRow hstore s
  | none =>
  cases hmodify : modifyRow i with
  | some r => exact execKeepsFlags_of_modifyRow hmodify s
  | none =>
  cases htest : testRow i with
  | some r => exact execKeepsFlags_of_testRow htest s
  | none =>
  cases hbranch : branchRow i with
  | some r => exact execKeepsFlags_of_branch (exec_of_branchRow hbranch s)
  | none =>
  cases hflag : flagRow i with
  | some r => exact execKeepsFlags_of_flagRow hflag s
  | none =>
  cases hpush : pushRow s i with
  | some bytes => exact execKeepsFlags_of_pushRow hpush
  | none =>
  cases hpushN : pushNRow s i with
  | some v => exact execKeepsFlags_of_pushNRow hs hpushN
  | none => exact execKeepsFlags_of_noRow hs hread hstore hmodify htest hbranch hflag hpush hpushN

/-- Settles O10, by the shape of the instruction's row. -/
theorem flagsFrame : Obligations.FlagsFrame := by
  intro i s hs
  exact execKeepsFlags i hs

end Sys2Proof.Machine
end

section
/-! SUPPORT. The instructions by the law that says what they do (Laws/Exec.lean), once for every statement about all
instructions; the ways a step can end (R349), once for every statement about all steps. -/

namespace Sys2Proof.Machine

/-! ### The rows of the opcode table -/

/-- The row an instruction has, or that it has a meaning of its own. -/
inductive RowOf (s : State) (i : Instr) : Prop
  | read {op : ReadOp} {o : Operand} (h : readRow i = some (op, o))
  | store {op : StoreOp} {f : MemForm} (h : storeRow i = some (op, f))
  | modifyAcc {op : ModifyOp} (h : modifyRow i = some (op, none))
  | modifyMem {op : ModifyOp} {f : MemForm} (h : modifyRow i = some (op, some f))
  | test {set : Bool} {f : MemForm} (h : testRow i = some (set, f))
  | branch {f : Flag} {b : Bool} {rel : Byte} (h : branchRow i = some (f, b, rel))
  | flag {f : Flag} {b : Bool} (h : flagRow i = some (f, b))
  | push {bytes : List Byte} (h : pushRow s i = some bytes)
  | pushN {v : Word} (h : pushNRow s i = some v)
  | own (hread : readRow i = none) (hstore : storeRow i = none) (hmodify : modifyRow i = none)
      (htest : testRow i = none) (hbranch : branchRow i = none) (hflag : flagRow i = none)
      (hpush : pushRow s i = none) (hpushN : pushNRow s i = none)

theorem rowOf (s : State) (i : Instr) : RowOf s i := by
  cases hread : readRow i with
  | some r => exact .read hread
  | none =>
  cases hstore : storeRow i with
  | some r => exact .store hstore
  | none =>
  cases hmodify : modifyRow i with
  | some r =>
    obtain ⟨op, f⟩ := r
    cases f with
    | none => exact .modifyAcc hmodify
    | some f => exact .modifyMem hmodify
  | none =>
  cases htest : testRow i with
  | some r => exact .test htest
  | none =>
  cases hbranch : branchRow i with
  | some r => exact .branch hbranch
  | none =>
  cases hflag : flagRow i with
  | some r => exact .flag hflag
  | none =>
  cases hpush : pushRow s i with
  | some bytes => exact .push hpush
  | none =>
  cases hpushN : pushNRow s i with
  | some v => exact .pushN hpushN
  | none => exact .own hread hstore hmodify htest hbranch hflag hpush hpushN

/-! ### The ways a step can end -/

/-- The state a step samples for an interrupt: the host inputs taken in, an NMI edge latched. -/
def State.latched (s : State) : State := s.nextInput.latchNmi s.input.nmi

@[simp] theorem State.latched_e (s : State) : s.latched.e = s.e := rfl

/-- How a step from `s` ends in `t` (R349). -/
inductive StepCase (s t : State) : Prop
  | reset (hr : s.input.reset = true) (ht : t = s.nextInput.resetEvent)
  | stopped (hr : s.input.reset = false) (hs : s.stopped = true) (ht : t = s.nextInput)
  | waiting (hr : s.input.reset = false) (hs : s.stopped = false) (hw : s.waiting = true)
      (hn : s.latched.nmiPending = false) (hq : s.input.irq = false) (ht : t = s.latched)
  | event {k : Event} (hr : s.input.reset = false) (hs : s.stopped = false)
      (hk : s.latched.pendingEvent s.input.irq = some k) (ht : t = s.latched.wake.interrupt k)
  | executed {i : Instr} {rest : List Byte} (hr : s.input.reset = false) (hs : s.stopped = false)
      (hk : s.latched.pendingEvent s.input.irq = none)
      (hd : decode (s.flag .m) (s.flag .x) s.nextInput.fetchBytes = .ok (i, rest))
      (ht : exec i s.latched.wake = .next t)

theorem State.instrByte_congr {s t : State} (hm : t.mem = s.mem) (hr : t.ioRegion = s.ioRegion) (hi : t.io = s.io)
    (hd : t.draws = s.draws) (hpbr : t.pbr = s.pbr) (hpc : t.pc = s.pc) (k : Nat) : t.instrByte k = s.instrByte k := by
  rw [State.instrByte, State.instrByte, hpbr, hpc]
  exact State.readByte_congr hm hr hi hd _ _

/-- The fetch does not read the latches. -/
theorem fetchBytes_latched_wake (s : State) : s.latched.wake.fetchBytes = s.nextInput.fetchBytes := by
  have hpbr : s.latched.wake.pbr = s.nextInput.pbr := rfl
  have hpc : s.latched.wake.pc = s.nextInput.pc := rfl
  have hinstr : ∀ k, s.latched.wake.instrByte k = s.nextInput.instrByte k :=
    State.instrByte_congr rfl rfl rfl rfl rfl rfl
  have hpushN8 : ∀ v k, (s.latched.wake.pushN8 v).instrByte k = (s.nextInput.pushN8 v).instrByte k :=
    fun _ => State.instrByte_congr rfl rfl rfl rfl rfl rfl
  have hpushN16 : ∀ v k, (s.latched.wake.pushN16 v).instrByte k = (s.nextInput.pushN16 v).instrByte k :=
    fun _ => State.instrByte_congr rfl rfl rfl rfl rfl rfl
  simp only [State.fetchBytes, hinstr, hpushN8, hpushN16, hpbr, hpc]

theorem pendingEvent_wake (irq : Bool) (s : State) : s.wake.pendingEvent irq = s.pendingEvent irq := rfl

/-- An executed instruction is the one the fetched bytes decode to. -/
theorem decode_of_fetchAndExecute {s t : State} (h : fetchAndExecute s = .next t) :
    ∃ i rest, decode (s.flag .m) (s.flag .x) s.fetchBytes = .ok (i, rest) ∧ exec i s = .next t := by
  unfold fetchAndExecute at h
  split at h
  next i rest hd => exact ⟨i, rest, hd, h⟩
  next => cases h

theorem stepCase {s t : State} (h : step s = .next t) : StepCase s t := by
  cases hr : s.input.reset with
  | true => exact .reset hr (by rw [step_reset hr] at h; cases h; rfl)
  | false =>
  cases hs : s.stopped with
  | true => exact .stopped hr hs (by rw [step_stopped hr hs] at h; cases h; rfl)
  | false =>
  have hb : s.boundary = s.latched.sample s.input.irq := by
    simp only [State.boundary, hr, hs, Bool.false_eq_true, if_false, State.latched]
  rw [step, hb, State.sample] at h
  by_cases hw : (s.latched.waiting && !(s.latched.nmiPending || s.input.irq)) = true
  · simp only [hw, if_true] at h
    cases h
    simp only [Bool.and_eq_true, Bool.not_eq_true', Bool.or_eq_false_iff] at hw
    obtain ⟨hwait, hn, hq⟩ := hw
    exact .waiting hr hs hwait hn hq rfl
  · simp only [hw, pendingEvent_wake] at h
    cases hk : s.latched.pendingEvent s.input.irq with
    | some k =>
      simp only [hk] at h
      cases h
      exact .event hr hs hk rfl
    | none =>
      simp only [hk] at h
      obtain ⟨i, rest, hd, hx⟩ := decode_of_fetchAndExecute h
      rw [fetchBytes_latched_wake] at hd
      exact .executed hr hs hk hd hx

end Sys2Proof.Machine
end

section
/-! SUPPORT. The mode invariants and the canonical form of memory (R42, R46): kept by every operation of the state, then
by every instruction, then by every step; in force at the start of a run. -/

namespace Sys2Proof.Machine

/-! ### The operations of the state -/

/-- The mode invariants do not read the other registers, nor `PC`, nor the latches. -/
theorem State.inv_of_same {s t : State} (h : s.Inv) (hp : t.p = s.p) (he : t.e = s.e) (hs : t.s = s.s)
    (hx : t.x = s.x) (hy : t.y = s.y) (hmem : t.mem = s.mem) : t.Inv := by
  obtain ⟨hmode, hwf⟩ := h
  refine ⟨?_, by rw [hmem]; exact hwf⟩
  simpa only [State.modeOk, State.flag, hp, he, hs, hx, hy] using hmode

theorem State.inv_advance {s : State} (h : s.Inv) (n : Nat) : (s.advance n).Inv := h

theorem State.inv_jump {s : State} (h : s.Inv) (target : Word) : (s.jump target).Inv := h

theorem State.inv_setPBR {s : State} (h : s.Inv) (b : Byte) : (s.setPBR b).Inv := h

/-- A change of `P` that keeps m and x. -/
theorem State.inv_of_flags {s t : State} {written : List Flag} (h : s.Inv) (ht : t = { s with p := t.p })
    (hk : keepsFlags s t written) (hm : .m ∉ written) (hx : .x ∉ written) : t.Inv := by
  obtain ⟨hmode, hwf⟩ := h
  have he : t.e = s.e := by rw [ht]
  refine ⟨State.modeOk_of_same hmode (hk _ hm) (hk _ hx) he ?_ ?_, ?_⟩ <;> rw [ht]
  · exact fun hE => (hmode.1 hE).2.2
  · exact hmode.2
  · exact hwf

theorem State.inv_setFlag {s : State} (h : s.Inv) (f : Flag) (b : Bool) (hm : f ≠ .m) (hx : f ≠ .x) :
    (s.setFlag f b).Inv :=
  State.inv_of_flags h rfl (keepsFlags_setFlag_of_p rfl f b) (by simpa using hm.symm) (by simpa using hx.symm)

theorem State.inv_setNZ {s : State} (h : s.Inv) (w : Width) (v : Word) : (s.setNZ w v).Inv :=
  State.inv_of_flags h rfl (State.keepsFlags_setNZ w v s) (by decide) (by decide)

/-- A value cut to the index width has a high byte of zero where x = 1. -/
theorem hiByte_trunc_wX {s : State} (hx : s.flag .x = true) (v : Word) : hiByte (trunc s.wX v) = 0 := by
  rw [State.wX_eq, hx]
  exact hiByte_trunc_w8 v

theorem State.inv_setX {s : State} (h : s.Inv) {w : Width} (hw : w = s.wX) (v : Word) : (s.setX w v).Inv := by
  subst hw
  exact ⟨⟨h.1.1, fun hx => ⟨hiByte_trunc_wX hx v, (h.1.2 hx).2⟩⟩, h.2⟩

theorem State.inv_setY {s : State} (h : s.Inv) {w : Width} (hw : w = s.wX) (v : Word) : (s.setY w v).Inv := by
  subst hw
  exact ⟨⟨h.1.1, fun hx => ⟨(h.1.2 hx).1, hiByte_trunc_wX hx v⟩⟩, h.2⟩

/-- `Normalize` puts the mode invariants in force, whatever held before. -/
theorem State.inv_normalize {s : State} (hwf : s.mem.wf = true) : s.normalize.Inv := ⟨s.modeOk_normalize, hwf⟩

theorem State.inv_setP {s : State} (hwf : s.mem.wf = true) (v : Byte) : (s.setP v).Inv := by
  rw [State.setP]
  exact State.inv_normalize hwf

theorem State.inv_exchangeCE {s : State} (hwf : s.mem.wf = true) : s.exchangeCE.Inv := by
  rw [State.exchangeCE]
  exact State.inv_normalize hwf

/-- A change of memory that keeps its canonical form, and of `S` that keeps `SH` in emulation mode. -/
theorem State.inv_of_stack {s t : State} (h : s.Inv) (ht : t = { s with mem := t.mem, s := t.s })
    (hs : s.e = true → hiByte t.s = hiByte s.s) (hwf : t.mem.wf = true) : t.Inv := by
  obtain ⟨hmode, -⟩ := h
  have hm : t.flag .m = s.flag .m := by rw [ht]; rfl
  have hx : t.flag .x = s.flag .x := by rw [ht]; rfl
  have he : t.e = s.e := by rw [ht]
  refine ⟨State.modeOk_of_same hmode hm hx he (fun hE => ?_) ?_, hwf⟩
  · rw [hs hE]
    exact (hmode.1 hE).2.2
  · rw [ht]
    exact hmode.2

theorem State.inv_writeLoc {s : State} (h : s.Inv) (l : Loc) (w : Width) (v : Word) : (s.writeLoc l w v).Inv :=
  State.inv_of_stack h (by cases w <;> rfl) (fun _ => by simp) (State.wf_writeLoc h.2)

theorem State.inv_writeBack {s : State} (h : s.Inv) (l : Loc) (w : Width) (v : Word) : (s.writeBack l w v).Inv :=
  State.inv_of_stack h (by cases w <;> rfl) (fun _ => by simp) (State.wf_writeBack h.2)

theorem State.inv_pushList {s : State} (h : s.Inv) (bytes : List Byte) : (pushList bytes s).Inv := by
  refine State.inv_of_stack h (pushList_eq bytes s) (fun hE => ?_) (wf_pushList bytes h.2)
  rw [pushList_s, hE, hiByte_stackBelow]

/-- A pull moves `S` inside page 1 in emulation mode. -/
theorem State.inv_pulls {s : State} (h : s.Inv) (k : Nat) : State.Inv { s with s := stackAbove s.e s.s k } := by
  refine State.inv_of_stack h rfl (fun hE => ?_) h.2
  show hiByte (stackAbove s.e s.s k) = _
  rw [hE, hiByte_stackAbove]

theorem State.inv_pull8 {s : State} (h : s.Inv) : s.pull8.2.Inv := State.inv_pulls h 1

theorem State.inv_pull16 {s : State} (h : s.Inv) : s.pull16.2.Inv := State.inv_pulls h 2

theorem State.inv_pullW {s : State} (h : s.Inv) (w : Width) : (s.pullW w).2.Inv := by
  rw [State.pullW_eq]
  exact State.inv_pulls h _

theorem State.inv_interrupt {s : State} (h : s.Inv) (k : Event) : (s.interrupt k).Inv := by
  have hframe : (s.pushFrame k).Inv := by
    rw [State.pushFrame_eq]
    exact State.inv_pushList h _
  have hflags : (((s.pushFrame k).setFlag .i true).setFlag .d false).Inv :=
    State.inv_setFlag (State.inv_setFlag hframe .i true (by decide) (by decide)) .d false (by decide) (by decide)
  exact State.inv_of_same hflags rfl rfl rfl rfl rfl rfl

/-- RTI normalises when it has pulled `P`; the pulls after that keep what `Normalize` established. -/
theorem State.inv_returnFromInterrupt {s : State} (hwf : s.mem.wf = true) : s.returnFromInterrupt.Inv := by
  have hbank : ∀ u : State, u.Inv → State.Inv (if u.e then u else u.pull8.2.setPBR u.pull8.1) := by
    intro u hu
    split
    · exact hu
    · exact State.inv_setPBR (State.inv_pull8 hu) _
  have hstatus : (s.pull8.2.setP s.pull8.1).Inv := State.inv_setP (s := s.pull8.2) hwf _
  rw [State.returnFromInterrupt]
  exact hbank _ (State.inv_jump (State.inv_pull16 hstatus) _)

theorem State.inv_resetEvent {s : State} (hwf : s.mem.wf = true) : s.resetEvent.Inv := ⟨s.modeOk_resetEvent, hwf⟩

/-! ### The operations on an operand -/

/-- An operation on an operand keeps an index register or writes it at the index width. -/
theorem ReadOp.index_apply (op : ReadOp) (b : Bool) (v : Word) (s : State) :
    ((op.apply b v s).x = s.x ∨ (op.apply b v s).x = trunc s.wX v) ∧
      ((op.apply b v s).y = s.y ∨ (op.apply b v s).y = trunc s.wX v) := by
  cases op
  case ldx => exact ⟨.inr rfl, .inl rfl⟩
  case ldy => exact ⟨.inl rfl, .inr rfl⟩
  case adc => exact ⟨.inl (by rw [ReadOp.apply, State.adc_eq]), .inl (by rw [ReadOp.apply, State.adc_eq])⟩
  case sbc => exact ⟨.inl (by rw [ReadOp.apply, State.sbc_eq]), .inl (by rw [ReadOp.apply, State.sbc_eq])⟩
  case bit => cases b <;> exact ⟨.inl rfl, .inl rfl⟩
  all_goals exact ⟨.inl rfl, .inl rfl⟩

/-- No operation on an operand writes m or x. -/
theorem ReadOp.mx_not_mem_flags (op : ReadOp) (b : Bool) : .m ∉ op.flags b ∧ .x ∉ op.flags b := by
  cases op <;> cases b <;> decide

theorem ReadOp.inv_apply {s : State} (h : s.Inv) (op : ReadOp) (b : Bool) (v : Word) : (op.apply b v s).Inv := by
  obtain ⟨hmode, hwf⟩ := h
  have heq := op.apply_eq b v s
  have hflags := op.keepsFlags_apply b v s
  obtain ⟨hm, hx⟩ := op.mx_not_mem_flags b
  obtain ⟨hX, hY⟩ := op.index_apply b v s
  have index : ∀ {u w : Word}, (u = w ∨ u = trunc s.wX v) → s.flag .x = true → hiByte w = 0 → hiByte u = 0 := by
    rintro u w (rfl | rfl) hxf hw
    · exact hw
    · exact hiByte_trunc_wX hxf v
  refine ⟨State.modeOk_of_same hmode (hflags _ hm) (hflags _ hx) (by rw [heq]) (fun hE => ?_) (fun hxf => ?_), ?_⟩
  · rw [heq]
    exact (hmode.1 hE).2.2
  · exact ⟨index hX hxf (hmode.2 hxf).1, index hY hxf (hmode.2 hxf).2⟩
  · rw [heq]
    exact hwf

theorem ModifyOp.inv_apply {s : State} (h : s.Inv) (op : ModifyOp) (v : Word) : (op.apply s v).2.Inv := by
  refine State.inv_of_flags h (op.apply_eq v s) (op.keepsFlags_apply v s) ?_ ?_ <;> cases op <;> decide

/-! ### The instructions -/

/-- One iteration of a block move writes X and Y at the index width (R290). -/
theorem State.inv_blockStep {s : State} (h : s.Inv) (dstbank srcbank : Byte) (dir : Word) :
    ∃ t, s.blockStep dstbank srcbank dir = .next t ∧ t.Inv :=
  ⟨_, rfl, ⟨h.1.1, fun hx => ⟨hiByte_trunc_wX (s := s) hx _, hiByte_trunc_wX (s := s) hx _⟩⟩, State.wf_writeByte h.2⟩

theorem State.inv_branch {s : State} (h : s.Inv) (taken : Bool) (rel : Byte) :
    ∃ t, s.branch taken rel = .next t ∧ t.Inv := by
  cases taken <;> exact ⟨_, rfl, h⟩

/-- Instructions with a meaning of their own: either `Normalize` ends them, or each operation they are made of keeps
the invariants. -/
theorem execInv_of_noRow {i : Instr} {s : State} (h : s.Inv) (hread : readRow i = none) (hstore : storeRow i = none)
    (hmodify : modifyRow i = none) (htest : testRow i = none) (hbranch : branchRow i = none) (hflag : flagRow i = none)
    (hpush : pushRow s i = none) (hpushN : pushNRow s i = none) : ∃ t, exec i s = .next t ∧ t.Inv := by
  have hadv : ∀ n, (s.advance n).Inv := State.inv_advance h
  have hwf : s.mem.wf = true := h.2
  cases i
  case brk | cop => exact ⟨_, rfl, State.inv_interrupt (hadv 2) _⟩
  case bra rel => exact State.inv_branch h true rel
  case brl | jmpAbs | jmpAbsInd | jmpAbsXInd | jmlLong | jmlAbsIndL | nop | wdm | stp | wai => exact ⟨_, rfl, h⟩
  case jsrAbs abs => exact ⟨_, rfl, State.inv_jump (State.inv_pushList (hadv 3) [_, _]) abs⟩
  case rts => exact ⟨_, rfl, State.inv_jump (State.inv_pull16 (hadv 1)) _⟩
  case mvn | mvp => exact State.inv_blockStep h _ _ _
  case jsl =>
    refine ⟨_, rfl, State.inv_normalize ?_⟩
    rw [State.jumpLong_mem]
    exact State.wf_pushN16 (State.wf_pushN8 hwf)
  case jsrAbsXInd =>
    refine ⟨_, rfl, State.inv_normalize ?_⟩
    rw [State.jump_mem]
    exact State.wf_pushN16 hwf
  case rtl | tcs | txs | pld => exact ⟨_, rfl, State.inv_normalize (by simpa using hwf)⟩
  case plp | rep | sep => exact ⟨_, rfl, State.inv_setP (by simpa using hwf) _⟩
  case xce => exact ⟨_, rfl, State.inv_exchangeCE hwf⟩
  case inx | dex | tax | tsx | tyx => exact ⟨_, rfl, State.inv_setNZ (State.inv_setX (hadv 1) rfl _) _ _⟩
  case iny | dey | tay | txy => exact ⟨_, rfl, State.inv_setNZ (State.inv_setY (hadv 1) rfl _) _ _⟩
  case txa | tya | tdc | tsc | tcd | xba => exact ⟨_, rfl, State.inv_setNZ h _ _⟩
  case plb => exact ⟨_, rfl, State.inv_setNZ (State.inv_pull8 (hadv 1)) _ _⟩
  case pla => exact ⟨_, rfl, State.inv_setNZ (State.inv_pullW (hadv 1) _) _ _⟩
  case plx => exact ⟨_, rfl, State.inv_setNZ (State.inv_setX (State.inv_pullW (hadv 1) _) (by simp) _) _ _⟩
  case ply => exact ⟨_, rfl, State.inv_setNZ (State.inv_setY (State.inv_pullW (hadv 1) _) (by simp) _) _ _⟩
  case rti => exact ⟨_, rfl, State.inv_returnFromInterrupt h.2⟩
  all_goals contradiction

/-- Every instruction keeps the invariants. -/
theorem exec_inv (i : Instr) {s : State} (h : s.Inv) : ∃ t, exec i s = .next t ∧ t.Inv := by
  have hadv : (s.advance (encode i).length).Inv := h
  cases rowOf s i with
  | read hrow => exact ⟨_, exec_of_readRow hrow s, ReadOp.inv_apply hadv _ _ _⟩
  | store hrow => exact ⟨_, exec_of_storeRow hrow s, State.inv_writeLoc hadv _ _ _⟩
  | modifyAcc hrow => exact ⟨_, exec_of_modifyRow_acc hrow s, State.inv_setNZ (ModifyOp.inv_apply hadv _ _) _ _⟩
  | modifyMem hrow =>
    exact ⟨_, exec_of_modifyRow_mem hrow s,
      State.inv_setNZ (State.inv_writeBack (ModifyOp.inv_apply hadv _ _) _ _ _) _ _⟩
  | test hrow =>
    exact ⟨_, exec_of_testRow hrow s,
      State.inv_writeBack (State.inv_setFlag hadv .z _ (by decide) (by decide)) _ _ _⟩
  | branch hrow => rw [exec_of_branchRow hrow s]; exact State.inv_branch h _ _
  | @flag f b hrow =>
    have hmx : f ≠ .m ∧ f ≠ .x := by cases i <;> cases hrow <;> decide
    exact ⟨_, exec_of_flagRow hrow s, State.inv_setFlag hadv f b hmx.1 hmx.2⟩
  | push hrow => exact ⟨_, exec_of_pushRow hrow, State.inv_pushList hadv _⟩
  | pushN hrow => exact ⟨_, exec_of_pushNRow hrow, State.inv_normalize (wf_pushNList _ hadv.2)⟩
  | own hread hstore hmodify htest hbranch hflag hpush hpushN =>
    exact execInv_of_noRow h hread hstore hmodify htest hbranch hflag hpush hpushN

/-! ### The steps -/

theorem step_keeps_inv {s t : State} (h : s.Inv) (hstep : step s = .next t) : t.Inv := by
  have hinput : s.nextInput.Inv := h
  have hlatched : s.latched.Inv := h
  have hawake : s.latched.wake.Inv := h
  cases stepCase hstep with
  | reset hr ht => exact ht ▸ State.inv_resetEvent hinput.2
  | stopped hr hs ht => exact ht ▸ hinput
  | waiting hr hs hw hn hq ht => exact ht ▸ hlatched
  | event hr hs hk ht => exact ht ▸ State.inv_interrupt hawake _
  | @executed i rest hr hs hk hd ht =>
    obtain ⟨u, hu, hinv⟩ := exec_inv i hawake
    cases ht.symm.trans hu
    exact hinv

/-- Settles O8, by the ways a step can end. -/
theorem stepKeepsInvariants : Obligations.StepKeepsInvariants :=
  fun _ _ h hstep => step_keeps_inv h hstep

/-! ### The start of a run -/

/-- What the spec gives after a reset (R48). -/
theorem State.resetEvent_values (s : State) (hwf : s.mem.wf = true) :
    let t := s.resetEvent
    t.Inv ∧ t.e = true ∧ t.flag .m = true ∧ t.flag .x = true ∧ t.flag .d = false ∧ t.flag .i = true ∧ t.d = 0 ∧
      t.dbr = 0 ∧ t.pbr = 0 ∧ hiByte t.s = 0x01 ∧ hiByte t.x = 0 ∧ hiByte t.y = 0 ∧ t.stopped = false ∧
      t.waiting = false ∧ t.nmiPending = false := by
  obtain ⟨hm, hx, hd, hi⟩ := resetP_flags s.draws
  exact ⟨State.inv_resetEvent hwf, rfl, hm, hx, hd, hi, rfl, rfl, rfl, hiByte_word16 _ _, hiByte_word16 _ _,
    hiByte_word16 _ _, rfl, rfl, rfl⟩

/-- Settles O9: the constants of `State.reset` are computed, the start of a run is the RESET event. -/
theorem resetState : Obligations.ResetState := by
  refine ⟨by decide, fun memInit ioRegion inputs hwf => ⟨State.resetEvent_values _ hwf, rfl, rfl, rfl, fun hlo hhi => ?_⟩⟩
  rw [State.start_pc hlo hhi, word16_toNat]

end Sys2Proof.Machine
end

section
/-! SUPPORT. The register frame (R20 to R26, R40, R45): a register after each operation of the state, then what each
instruction keeps; and the emulation bit over a step. -/

namespace Sys2Proof.Machine

/-! ### A register after an operation -/

section
variable {r : Reg} (s : State)

@[simp] theorem State.reg_advance (n : Nat) : (s.advance n).reg r = s.reg r := by cases r <;> rfl

@[simp] theorem State.reg_jump (v : Word) : (s.jump v).reg r = s.reg r := by cases r <;> rfl

@[simp] theorem State.reg_setFlag (f : Flag) (b : Bool) : (s.setFlag f b).reg r = s.reg r := by cases r <;> rfl

@[simp] theorem State.reg_setNZ (w : Width) (v : Word) : (s.setNZ w v).reg r = s.reg r := by cases r <;> rfl

@[simp] theorem State.reg_compare (w : Width) (reg m : Word) : (s.compare w reg m).reg r = s.reg r := by
  simp [State.compare]

@[simp] theorem State.reg_writeLoc (l : Loc) (w : Width) (v : Word) : (s.writeLoc l w v).reg r = s.reg r := by
  cases r <;> simp [State.reg]

@[simp] theorem State.reg_writeBack (l : Loc) (w : Width) (v : Word) : (s.writeBack l w v).reg r = s.reg r := by
  cases r <;> simp [State.reg]

@[simp] theorem State.reg_setA (h : r ≠ .c) (w : Width) (v : Word) : (s.setA w v).reg r = s.reg r := by
  cases r <;> trivial

@[simp] theorem State.reg_setX (h : r ≠ .x) (w : Width) (v : Word) : (s.setX w v).reg r = s.reg r := by
  cases r <;> trivial

@[simp] theorem State.reg_setY (h : r ≠ .y) (w : Width) (v : Word) : (s.setY w v).reg r = s.reg r := by
  cases r <;> trivial

@[simp] theorem State.reg_setD (h : r ≠ .d) (v : Word) : (s.setD v).reg r = s.reg r := by cases r <;> trivial

@[simp] theorem State.reg_setS (h : r ≠ .s) (v : Word) : (s.setS v).reg r = s.reg r := by cases r <;> trivial

@[simp] theorem State.reg_setDBR (h : r ≠ .dbr) (b : Byte) : (s.setDBR b).reg r = s.reg r := by cases r <;> trivial

@[simp] theorem State.reg_setPBR (h : r ≠ .pbr) (b : Byte) : (s.setPBR b).reg r = s.reg r := by cases r <;> trivial

@[simp] theorem State.reg_jumpLong (h : r ≠ .pbr) (a : Addr) : (s.jumpLong a).reg r = s.reg r := by cases r <;> trivial

@[simp] theorem State.reg_stop (h : r ≠ .stopped) : s.stop.reg r = s.reg r := by cases r <;> trivial

@[simp] theorem State.reg_wait (h : r ≠ .waiting) : s.wait.reg r = s.reg r := by cases r <;> trivial

@[simp] theorem State.reg_pushList (h : r ≠ .s) (bytes : List Byte) : (pushList bytes s).reg r = s.reg r := by
  rw [pushList_eq]
  cases r <;> trivial

@[simp] theorem State.reg_pushNList (h : r ≠ .s) (bytes : List Byte) : (pushNList bytes s).reg r = s.reg r := by
  rw [pushNList_eq]
  cases r <;> trivial

@[simp] theorem State.reg_push16 (h : r ≠ .s) (v : Word) : (s.push16 v).reg r = s.reg r := by cases r <;> trivial

@[simp] theorem State.reg_pushN8 (h : r ≠ .s) (v : Byte) : (s.pushN8 v).reg r = s.reg r := by cases r <;> trivial

@[simp] theorem State.reg_pushN16 (h : r ≠ .s) (v : Word) : (s.pushN16 v).reg r = s.reg r := by cases r <;> trivial

@[simp] theorem State.reg_pull8 (h : r ≠ .s) : s.pull8.2.reg r = s.reg r := by cases r <;> trivial

@[simp] theorem State.reg_pull16 (h : r ≠ .s) : s.pull16.2.reg r = s.reg r := by cases r <;> trivial

@[simp] theorem State.reg_pullN16 (h : r ≠ .s) : s.pullN16.2.reg r = s.reg r := by cases r <;> trivial

@[simp] theorem State.reg_pullN24 (h : r ≠ .s) : s.pullN24.2.reg r = s.reg r := by cases r <;> trivial

@[simp] theorem State.reg_pullW (h : r ≠ .s) (w : Width) : (s.pullW w).2.reg r = s.reg r := by
  rw [State.pullW_eq]
  cases r <;> trivial

@[simp] theorem State.reg_exchangeBA (h : r ≠ .c) : s.exchangeBA.reg r = s.reg r := by cases r <;> trivial

/-- Taking BRK, COP or an IRQ writes `S` and `PBR`; an NMI also clears its latch (R348). -/
theorem State.reg_interrupt (hs : r ≠ .s) (hpbr : r ≠ .pbr) {k : Event} (hk : k ≠ .nmi) :
    (s.interrupt k).reg r = s.reg r := by
  have hlatch : (s.nmiPending && k != .nmi) = s.nmiPending := by rw [bne_iff_ne.2 hk, Bool.and_true]
  cases r <;> first | contradiction | simp [State.reg, hlatch]

theorem State.reg_returnFromInterrupt (hx : r ≠ .x) (hy : r ≠ .y) (hs : r ≠ .s) (hpbr : r ≠ .pbr) :
    s.returnFromInterrupt.reg r = s.reg r := by
  cases r <;> simp_all [State.reg]

theorem State.reg_exchangeCE (hx : r ≠ .x) (hy : r ≠ .y) (hs : r ≠ .s) (he : r ≠ .e) :
    s.exchangeCE.reg r = s.reg r := by
  cases r <;> trivial

end

/-- `Normalize` may write the register (R42). -/
def Reg.ofMode : Reg → Bool
  | .x | .y | .s => true
  | _ => false

/-- `Normalize` keeps X and Y if it does not find x = 1 where the mode invariants had x = 0. -/
theorem State.normalize_index {s t : State} (hs : s.modeOk) (he : t.e = s.e) (hf : t.flag .x = true → s.flag .x = true)
    (hx : t.x = s.x) (hy : t.y = s.y) : t.normalize.x = t.x ∧ t.normalize.y = t.y := by
  rw [State.normalize_x, State.normalize_y, State.wX_eq]
  split
  next hn =>
    have hsx : s.flag .x = true := by
      rw [State.flag_normalize, Bool.or_eq_true, Bool.and_eq_true, he] at hn
      exact hn.elim hf fun hE => (hs.1 hE.1).2.1
    exact ⟨trunc_w8_of_hi (hx ▸ (hs.2 hsx).1), trunc_w8_of_hi (hy ▸ (hs.2 hsx).2)⟩
  next => exact ⟨rfl, rfl⟩

/-- `Normalize` keeps `S` if that has its old value, X and Y as `State.normalize_index` says, and the others always. -/
theorem State.reg_normalize {s t : State} {r : Reg} (hmode : r.ofMode = true → s.modeOk) (he : t.e = s.e)
    (hindex : r = .x ∨ r = .y → (t.flag .x = true → s.flag .x = true) ∧ t.x = s.x ∧ t.y = s.y)
    (hstack : r = .s → t.s = s.s) : t.normalize.reg r = t.reg r := by
  cases r
  case x =>
    obtain ⟨hf, hx, hy⟩ := hindex (.inl rfl)
    exact congrArg BitVec.toNat (State.normalize_index (hmode rfl) he hf hx hy).1
  case y =>
    obtain ⟨hf, hx, hy⟩ := hindex (.inr rfl)
    exact congrArg BitVec.toNat (State.normalize_index (hmode rfl) he hf hx hy).2
  case s =>
    have hS : t.normalize.s = t.s := by
      rw [hstack rfl, State.normalize_s, hstack rfl, he]
      exact State.normalS_of_modeOk (hmode rfl)
    exact congrArg BitVec.toNat hS
  all_goals rfl

/-- `Normalize` at the end of an instruction that writes `S` and keeps `P`'s x, E, X and Y. -/
theorem State.reg_normalize_of_stack {s t : State} {r : Reg} (hmode : r.ofMode = true → s.modeOk) (he : t.e = s.e)
    (hf : t.flag .x = s.flag .x) (hx : t.x = s.x) (hy : t.y = s.y) (hr : r ≠ .s) : t.normalize.reg r = t.reg r :=
  State.reg_normalize hmode he (fun _ => ⟨fun h => hf ▸ h, hx, hy⟩) fun h => absurd h hr

/-- A write of `P` keeps X and Y if it does not set x where the mode invariants had x = 0, and `S` if that has its old
value. -/
theorem State.reg_setP {s t : State} {r : Reg} {v : Byte} (hmode : r.ofMode = true → s.modeOk) (he : t.e = s.e)
    (hindex : r = .x ∨ r = .y → (v.getLsbD (flagBit .x) = true → s.flag .x = true) ∧ t.x = s.x ∧ t.y = s.y)
    (hstack : r = .s → t.s = s.s) : (t.setP v).reg r = t.reg r :=
  (State.reg_normalize (t := { t with p := v }) hmode he hindex hstack).trans (by cases r <;> rfl)

/-! ### The operations on an operand -/

/-- The registers an operation on an operand writes. -/
def ReadOp.regs : ReadOp → List Reg
  | .ora | .and | .eor | .lda => [.c]
  | .adc | .sbc => [.c, .draws]
  | .cmp | .bit | .cpx | .cpy => []
  | .ldx => [.x]
  | .ldy => [.y]

theorem ReadOp.reg_apply {op : ReadOp} {r : Reg} (h : r ∉ op.regs) (b : Bool) (v : Word) (s : State) :
    (op.apply b v s).reg r = s.reg r := by
  cases op <;> simp only [ReadOp.regs, List.mem_cons, List.not_mem_nil, or_false, not_or] at h
  case ora | and | eor | lda => exact (State.reg_setNZ _ _ _).trans (State.reg_setA _ h _ _)
  case ldx => exact (State.reg_setNZ _ _ _).trans (State.reg_setX _ h _ _)
  case ldy => exact (State.reg_setNZ _ _ _).trans (State.reg_setY _ h _ _)
  case cmp | cpx | cpy => exact State.reg_compare _ _ _ _
  case bit => cases b <;> simp [ReadOp.apply, State.bitMem, State.bitImm]
  case adc =>
    obtain ⟨hc, hdraws⟩ := h
    rw [ReadOp.apply, State.adc_eq]
    cases r <;> trivial
  case sbc =>
    obtain ⟨hc, hdraws⟩ := h
    rw [ReadOp.apply, State.sbc_eq]
    cases r <;> trivial

theorem ModifyOp.reg_apply (op : ModifyOp) (v : Word) (s : State) {r : Reg} : (op.apply s v).2.reg r = s.reg r := by
  rw [op.apply_eq]
  cases r <;> rfl

/-! ### The registers of the rows -/

theorem regsWritten_of_readRow {i : Instr} {op : ReadOp} {o : Operand} (h : readRow i = some (op, o)) :
    regsWritten i = op.regs := by
  cases i <;> cases h <;> rfl

theorem regsWritten_of_modifyRow_acc {i : Instr} {op : ModifyOp} (h : modifyRow i = some (op, none)) :
    regsWritten i = [.c] := by
  cases i <;> cases h <;> rfl

theorem regsWritten_of_pushRow {s : State} {i : Instr} {bytes : List Byte} (h : pushRow s i = some bytes) :
    regsWritten i = [.s] := by
  cases i <;> cases h <;> rfl

theorem regsWritten_of_pushNRow {s : State} {i : Instr} {v : Word} (h : pushNRow s i = some v) :
    regsWritten i = [.s] := by
  cases i <;> cases h <;> rfl

/-! ### The frame of each instruction -/

/-- The instruction answers a next state that keeps what the host gives and every register outside `regsWritten`: X, Y
and `S` if the mode invariants held before, the others from every state. -/
def ExecKeepsRegs (s : State) (i : Instr) : Prop :=
  ∃ t, exec i s = .next t ∧ (t.ioRegion = s.ioRegion ∧ t.io = s.io ∧ t.inputs = s.inputs) ∧
    ∀ r, r ∉ regsWritten i → (r.ofMode = true → s.modeOk) → t.reg r = s.reg r

theorem execKeepsRegs_of_readRow {i : Instr} {op : ReadOp} {o : Operand} (h : readRow i = some (op, o)) (s : State) :
    ExecKeepsRegs s i := by
  refine ⟨_, exec_of_readRow h s, ?_, fun r hr _ => ?_⟩
  · rw [op.apply_eq]
    exact ⟨rfl, rfl, rfl⟩
  · rw [regsWritten_of_readRow h] at hr
    exact (ReadOp.reg_apply hr _ _ _).trans (s.reg_advance _)

theorem execKeepsRegs_of_storeRow {i : Instr} {op : StoreOp} {f : MemForm} (h : storeRow i = some (op, f))
    (s : State) : ExecKeepsRegs s i :=
  ⟨_, exec_of_storeRow h s, by simp, fun r _ _ => by simp⟩

theorem execKeepsRegs_of_modifyRow_acc {i : Instr} {op : ModifyOp} (h : modifyRow i = some (op, none)) (s : State) :
    ExecKeepsRegs s i := by
  refine ⟨_, exec_of_modifyRow_acc h s, ?_, fun r hr _ => ?_⟩
  · rw [op.apply_eq]
    exact ⟨rfl, rfl, rfl⟩
  · rw [regsWritten_of_modifyRow_acc h, List.mem_singleton] at hr
    simp [hr, ModifyOp.reg_apply]

theorem execKeepsRegs_of_modifyRow_mem {i : Instr} {op : ModifyOp} {f : MemForm} (h : modifyRow i = some (op, some f))
    (s : State) : ExecKeepsRegs s i := by
  refine ⟨_, exec_of_modifyRow_mem h s, ?_, fun r _ _ => ?_⟩
  · rw [op.apply_eq]
    simp
  · simp [ModifyOp.reg_apply]

theorem execKeepsRegs_of_testRow {i : Instr} {set : Bool} {f : MemForm} (h : testRow i = some (set, f)) (s : State) :
    ExecKeepsRegs s i :=
  ⟨_, exec_of_testRow h s, by simp, fun r _ _ => by simp⟩

theorem execKeepsRegs_of_branch {i : Instr} {s : State} {taken : Bool} {rel : Byte}
    (h : exec i s = s.branch taken rel) : ExecKeepsRegs s i := by
  cases taken <;> exact ⟨_, h, ⟨rfl, rfl, rfl⟩, fun r _ _ => by simp⟩

theorem execKeepsRegs_of_flagRow {i : Instr} {f : Flag} {b : Bool} (h : flagRow i = some (f, b)) (s : State) :
    ExecKeepsRegs s i :=
  ⟨_, exec_of_flagRow h s, by simp, fun r _ _ => by simp⟩

theorem execKeepsRegs_of_pushRow {s : State} {i : Instr} {bytes : List Byte} (h : pushRow s i = some bytes) :
    ExecKeepsRegs s i := by
  refine ⟨_, exec_of_pushRow h, ?_, fun r hr _ => ?_⟩
  · rw [pushList_eq]
    exact ⟨rfl, rfl, rfl⟩
  · rw [regsWritten_of_pushRow h, List.mem_singleton] at hr
    simp [hr]

theorem execKeepsRegs_of_pushNRow {s : State} {i : Instr} {v : Word} (h : pushNRow s i = some v) :
    ExecKeepsRegs s i := by
  refine ⟨_, exec_of_pushNRow h, ?_, fun r hr hmode => ?_⟩
  · rw [pushNList_eq]
    exact ⟨rfl, rfl, rfl⟩
  · rw [regsWritten_of_pushNRow h, List.mem_singleton] at hr
    refine (State.reg_normalize_of_stack hmode ?_ ?_ ?_ ?_ hr).trans (by simp [hr]) <;> rw [pushNList_eq] <;> rfl

/-- REP clears bits of `P`, so it does not set x where the mode invariants had x = 0. -/
theorem execKeepsRegs_rep (imm : Byte) (s : State) : ExecKeepsRegs s (.rep imm) := by
  have hclear : (s.p &&& ~~~imm).getLsbD (flagBit .x) = true → s.flag .x = true := by
    rw [BitVec.getLsbD_and, Bool.and_eq_true]
    exact And.left
  refine ⟨_, rfl, by simp, fun r _ hmode => ?_⟩
  exact (State.reg_setP hmode rfl (fun _ => ⟨hclear, rfl, rfl⟩) fun _ => rfl).trans (s.reg_advance 2)

theorem execKeepsRegs_sep (imm : Byte) (s : State) : ExecKeepsRegs s (.sep imm) := by
  refine ⟨_, rfl, by simp, fun r hr hmode => ?_⟩
  simp only [regsWritten, List.mem_cons, List.not_mem_nil, or_false] at hr
  exact (State.reg_setP hmode rfl (fun h => absurd h hr) fun _ => rfl).trans (s.reg_advance 2)

theorem execKeepsRegs_plp (s : State) : ExecKeepsRegs s .plp := by
  refine ⟨_, rfl, by simp, fun r hr hmode => ?_⟩
  simp only [regsWritten, List.mem_cons, List.not_mem_nil, or_false, not_or] at hr
  obtain ⟨hx, hy, hs⟩ := hr
  exact (State.reg_setP (t := (s.advance 1).pull8.2) hmode rfl (fun h => absurd h (not_or.2 ⟨hx, hy⟩))
    fun h => absurd h hs).trans (by simp [hs])

/-- Instructions with a meaning of their own: each operation they are made of writes only registers that are listed;
`Normalize` finds E, x, X and Y as they were, or may write what it changes. -/
theorem execKeepsRegs_of_noRow {i : Instr} {s : State} (hread : readRow i = none) (hstore : storeRow i = none)
    (hmodify : modifyRow i = none) (htest : testRow i = none) (hbranch : branchRow i = none) (hflag : flagRow i = none)
    (hpush : pushRow s i = none) (hpushN : pushNRow s i = none) : ExecKeepsRegs s i := by
  cases i
  case bra => exact execKeepsRegs_of_branch rfl
  case brk | cop =>
    refine ⟨_, rfl, by simp, fun r hr _ => ?_⟩
    simp only [regsWritten, List.mem_cons, List.not_mem_nil, or_false, not_or] at hr
    exact (State.reg_interrupt _ hr.1 hr.2 (by decide)).trans (s.reg_advance 2)
  case brl | jmpAbs | jmpAbsInd | jmpAbsXInd | nop | wdm | jmlLong | jmlAbsIndL | jsrAbs | rts | inx | iny | dex | dey
      | tax | tay | tsx | txa | txy | tya | tyx | tdc | tsc | tcd | xba | pla | plb | plx | ply | stp | wai =>
    refine ⟨_, rfl, by simp, fun r hr _ => ?_⟩
    simp only [regsWritten, List.mem_cons, List.not_mem_nil, or_false, not_or] at hr
    simp [hr]
  case mvn | mvp =>
    refine ⟨_, rfl, ⟨rfl, rfl, rfl⟩, fun r hr _ => ?_⟩
    cases r <;> first | rfl | exact absurd hr (by simp [regsWritten])
  case jsl | jsrAbsXInd | rtl | tcs | txs | pld =>
    refine ⟨_, rfl, by simp, fun r hr hmode => ?_⟩
    simp only [regsWritten, List.mem_cons, List.not_mem_nil, or_false, not_or] at hr
    exact (State.reg_normalize_of_stack hmode (by simp) (by simp [State.flag_setNZ]) (by simp) (by simp)
      (by simp [hr])).trans (by simp [hr])
  case rep => exact execKeepsRegs_rep _ s
  case sep => exact execKeepsRegs_sep _ s
  case plp => exact execKeepsRegs_plp s
  case rti =>
    refine ⟨_, rfl, by simp, fun r hr _ => ?_⟩
    simp only [regsWritten, List.mem_cons, List.not_mem_nil, or_false, not_or] at hr
    obtain ⟨hx, hy, hs, hpbr⟩ := hr
    exact (State.reg_returnFromInterrupt _ hx hy hs hpbr).trans (s.reg_advance 1)
  case xce =>
    refine ⟨_, rfl, by simp, fun r hr _ => ?_⟩
    simp only [regsWritten, List.mem_cons, List.not_mem_nil, or_false, not_or] at hr
    obtain ⟨hx, hy, hs, he⟩ := hr
    exact (State.reg_exchangeCE _ hx hy hs he).trans (s.reg_advance 1)
  all_goals contradiction

theorem execKeepsRegs (s : State) (i : Instr) : ExecKeepsRegs s i := by
  cases rowOf s i with
  | read h => exact execKeepsRegs_of_readRow h s
  | store h => exact execKeepsRegs_of_storeRow h s
  | modifyAcc h => exact execKeepsRegs_of_modifyRow_acc h s
  | modifyMem h => exact execKeepsRegs_of_modifyRow_mem h s
  | test h => exact execKeepsRegs_of_testRow h s
  | branch h => exact execKeepsRegs_of_branch (exec_of_branchRow h s)
  | flag h => exact execKeepsRegs_of_flagRow h s
  | push h => exact execKeepsRegs_of_pushRow h
  | pushN h => exact execKeepsRegs_of_pushNRow h
  | own hread hstore hmodify htest hbranch hflag hpush hpushN =>
    exact execKeepsRegs_of_noRow hread hstore hmodify htest hbranch hflag hpush hpushN

/-- Settles O11, by the row of the instruction. -/
theorem registersFrame : Obligations.RegistersFrame := by
  intro i s hs
  obtain ⟨t, ht, ⟨hregion, hio, hinputs⟩, hreg⟩ := execKeepsRegs s i
  exact ⟨t, ht, hregion, hio, hinputs, fun r hr => hreg r hr fun _ => hs⟩

/-! ### The emulation bit over a step -/

theorem e_not_mem_regsWritten {i : Instr} (h : i ≠ .xce) : .e ∉ regsWritten i := by
  have : (regsWritten i).contains .e = false := by cases i <;> first | rfl | contradiction
  simpa using this

/-- Only XCE writes E, from every state. -/
theorem exec_e {i : Instr} {s t : State} (hi : i ≠ .xce) (h : exec i s = .next t) : t.e = s.e := by
  obtain ⟨u, hu, -, hreg⟩ := execKeepsRegs s i
  cases h.symm.trans hu
  have hnat : t.e.toNat = s.e.toNat := hreg .e (e_not_mem_regsWritten hi) fun hmode => absurd hmode (by decide)
  simpa only [Bool.ofNat_toNat] using congrArg Bool.ofNat hnat

/-- Settles O14: of the ways a step can end, only an executed instruction can write E, and that is XCE. -/
theorem emulationBitChangesOnlyByXce : Obligations.EmulationBitChangesOnlyByXce := by
  intro s t hreset hstep he
  cases stepCase hstep with
  | reset hr ht => exact absurd (hreset.symm.trans hr) (by decide)
  | stopped hr hs ht => exact absurd (by rw [ht, State.nextInput_e]) he
  | waiting hr hs hw hn hq ht => exact absurd (by rw [ht, State.latched_e]) he
  | event hr hs hk ht => exact absurd (by rw [ht, State.interrupt_e, State.wake_e, State.latched_e]) he
  | @executed i rest hr hs hk hd ht =>
    by_cases hi : i = .xce
    · exact ⟨rest, hi ▸ hd⟩
    · exact absurd (exec_e hi ht) he

end Sys2Proof.Machine
end

section
/-! SUPPORT. The program counter after an instruction that does not redirect control (R28, R66). -/

namespace Sys2Proof.Machine

theorem goesOn_advance {i : Instr} {s t : State} (h : t.pc = (s.advance (encode i).length).pc) : goesOn i s t := h

theorem ModifyOp.apply_pc (op : ModifyOp) (v : Word) (t : State) : (op.apply t v).2.pc = t.pc := by rw [op.apply_eq]

/-- Instructions with a meaning of their own that do not redirect control: `PC` is moved past their bytes first, and
nothing after that writes it. -/
theorem execGoesOn_of_noRow {i : Instr} {s : State} (hi : redirects i = false) (hread : readRow i = none)
    (hstore : storeRow i = none) (hmodify : modifyRow i = none) (htest : testRow i = none) (hflag : flagRow i = none)
    (hpush : pushRow s i = none) (hpushN : pushNRow s i = none) : ∃ t, exec i s = .next t ∧ goesOn i s t := by
  cases i
  case inx | iny | dex | dey | tax | tay | tsx | txa | txy | tya | tyx | tdc | tsc | tcd | tcs | txs | xba | plb | pld
      | plp | rep | sep | xce | nop | wdm | stp | wai =>
    exact ⟨_, rfl, rfl⟩
  case pla | plx | ply => exact ⟨_, rfl, goesOn_advance (State.pullW_pc _ (s.advance 1))⟩
  all_goals contradiction

theorem execGoesOn {i : Instr} {s : State} (hi : redirects i = false) : ∃ t, exec i s = .next t ∧ goesOn i s t := by
  cases rowOf s i with
  | read h => exact ⟨_, exec_of_readRow h s, by rw [ReadOp.apply_eq]; rfl⟩
  | store h => exact ⟨_, exec_of_storeRow h s, goesOn_advance (by simp)⟩
  | modifyAcc h => exact ⟨_, exec_of_modifyRow_acc h s, by rw [ModifyOp.apply_eq]; rfl⟩
  | @modifyMem op _ h => exact ⟨_, exec_of_modifyRow_mem h s, goesOn_advance (by simp [op.apply_pc])⟩
  | test h => exact ⟨_, exec_of_testRow h s, goesOn_advance (by simp)⟩
  | branch h => cases i <;> contradiction
  | flag h => exact ⟨_, exec_of_flagRow h s, rfl⟩
  | push h => exact ⟨_, exec_of_pushRow h, by rw [pushList_eq]; rfl⟩
  | pushN h => exact ⟨_, exec_of_pushNRow h, by rw [pushNList_eq]; rfl⟩
  | own hread hstore hmodify htest hbranch hflag hpush hpushN =>
    exact execGoesOn_of_noRow hi hread hstore hmodify htest hflag hpush hpushN

/-- Settles O13, by the row of the instruction. -/
theorem programCounterAdvances : Obligations.ProgramCounterAdvances := by
  intro i s hi
  obtain ⟨t, ht, hpc⟩ := execGoesOn (s := s) hi
  refine ⟨t, ht, ?_⟩
  rw [hpc, BitVec.toNat_add, BitVec.toNat_ofNat, Nat.add_mod_mod]

end Sys2Proof.Machine
end

section
/-! SUPPORT. Memory is its contents (R46, R61, R73, R81): two memories in canonical form that hold the same are the same
data, so a law of writes is the same law of what locations hold. -/

namespace Sys2Proof.Machine

/-- In a memory in canonical form no address below the first one listed holds a value. -/
theorem Memory.head_le_of_lookup {k a : Nat} {v w : Byte} {rest : Memory} (hwf : Memory.wf ((k, v) :: rest) = true)
    (h : Memory.lookup ((k, v) :: rest) a = some w) : k ≤ a := by
  obtain ⟨-, habove, -⟩ := Memory.wf_cons.1 hwf
  by_contra hlt
  have hnone : Memory.lookup ((k, v) :: rest) a = none :=
    Memory.lookup_of_above (Memory.above_cons.2 ⟨by omega, Memory.above_mono (by omega) habove⟩) le_rfl
  rw [hnone] at h
  cases h

theorem Memory.lookup_head (k : Nat) (v : Byte) (rest : Memory) : Memory.lookup ((k, v) :: rest) k = some v := by
  simp [Memory.lookup_cons]

/-- Canonical memories with the same contents are the same data. -/
theorem Memory.eq_of_lookup {m₁ m₂ : Memory} (h₁ : m₁.wf = true) (h₂ : m₂.wf = true)
    (h : ∀ a, m₁.lookup a = m₂.lookup a) : m₁ = m₂ := by
  induction m₁ generalizing m₂ with
  | nil =>
    cases m₂ with
    | nil => rfl
    | cons cell rest =>
      obtain ⟨l, w⟩ := cell
      have hl := (h l).trans (Memory.lookup_head l w rest)
      cases hl
  | cons cell₁ rest₁ ih =>
    obtain ⟨k, v⟩ := cell₁
    cases m₂ with
    | nil =>
      have hk := (Memory.lookup_head k v rest₁).symm.trans (h k)
      cases hk
    | cons cell₂ rest₂ =>
      obtain ⟨l, w⟩ := cell₂
      have hkl : k = l :=
        Nat.le_antisymm (Memory.head_le_of_lookup h₁ ((h l).trans (Memory.lookup_head l w rest₂)))
          (Memory.head_le_of_lookup h₂ ((h k).symm.trans (Memory.lookup_head k v rest₁)))
      subst hkl
      have hvw : v = w := by simpa [Memory.lookup_head] using h k
      subst hvw
      obtain ⟨-, habove₁, hwf₁⟩ := Memory.wf_cons.1 h₁
      obtain ⟨-, habove₂, hwf₂⟩ := Memory.wf_cons.1 h₂
      have hrest : ∀ a, Memory.lookup rest₁ a = Memory.lookup rest₂ a := by
        intro a
        by_cases ha : k = a
        · subst ha
          rw [Memory.lookup_of_above habove₁ le_rfl, Memory.lookup_of_above habove₂ le_rfl]
        · simpa [Memory.lookup_cons, ha] using h a
      rw [ih hwf₁ hwf₂ hrest]

section
variable {m : Memory} {a b : Nat} {v w : Byte}

/-- Writing what a location holds changes nothing. -/
theorem Memory.write_of_lookup (h : m.wf = true) (ha : a < 2 ^ 24) (hv : m.lookup a = some v) : m.write a v = m := by
  refine Memory.eq_of_lookup (Memory.wf_write h ha) h fun c => ?_
  rw [Memory.lookup_write]
  split
  next hc => rw [← hc, hv]
  next => rfl

/-- Of two writes to one address the second counts. -/
theorem Memory.write_write_same (h : m.wf = true) (ha : a < 2 ^ 24) : (m.write a v).write a w = m.write a w := by
  refine Memory.eq_of_lookup (Memory.wf_write (Memory.wf_write h ha) ha) (Memory.wf_write h ha) fun c => ?_
  simp only [Memory.lookup_write]
  split <;> rfl

/-- Writes to two addresses commute. -/
theorem Memory.write_comm (h : m.wf = true) (ha : a < 2 ^ 24) (hb : b < 2 ^ 24) (hab : a ≠ b) :
    (m.write a v).write b w = (m.write b w).write a v := by
  refine Memory.eq_of_lookup (Memory.wf_write (Memory.wf_write h ha) hb) (Memory.wf_write (Memory.wf_write h hb) ha)
    fun c => ?_
  simp only [Memory.lookup_write]
  by_cases hc : b = c
  · subst hc
    simp [hab]
  · simp [hc]

end

/-- The inputs of a step taken in, field by field. -/
theorem State.nextInput_eq (s : State) : s.nextInput =
    { s with
      io := s.input.io, inputs := s.inputs.tail, draws := if s.ioRegion = [] then s.draws else s.draws + 1 } := by
  simp only [State.nextInput, State.answerDraws, List.isEmpty_iff]

theorem State.isDevice_eq_false_iff {s : State} {a : Addr} :
    s.isDevice a = false ↔ ¬∃ first last, (first, last) ∈ s.ioRegion ∧ first ≤ a.toNat ∧ a.toNat ≤ last := by
  rw [← Bool.not_eq_true, State.isDevice_iff]

/-- A read at a device address yields the first answer listed for it, and a draw if none is. -/
theorem State.readByte_device_answer {s : State} {a : Addr} (h : s.isDevice a = true) (p : ReadPurpose) :
    (∀ before v after, s.io = before ++ ⟨p, a, v⟩ :: after → (∀ w, ⟨p, a, w⟩ ∉ before) → s.readByte p a = v) ∧
      ((∀ v, ⟨p, a, v⟩ ∉ s.io) → s.readByte p a = Config.deviceByte s.draws p a) := by
  rw [State.readByte_of_device h]
  constructor
  · intro before v after hio hfirst
    rw [hio, answerTo_first v hfirst, Option.getD_some]
  · intro hnone
    rw [answerTo_none hnone, Option.getD_none]

/-- Settles O60: canonical memories are equal when they hold the same, and a read is told by `IO_REGION`. -/
theorem memoryIsItsContents : Obligations.MemoryIsItsContents := by
  refine ⟨fun _ _ => Memory.eq_of_lookup, fun m a b v w => ⟨Memory.read_of_lookup_some, Memory.read_of_lookup_none, ?_,
    fun h ha hb => ⟨Memory.write_of_lookup h ha, Memory.write_write_same h ha, Memory.write_comm h ha hb⟩⟩,
    fun s => ⟨s.nextInput_eq, fun p a => ?_⟩⟩
  · simp only [Memory.lookup_write, eq_comm]
  · intro device
    have hdevice : device ↔ s.isDevice a = true := State.isDevice_iff.symm
    refine ⟨fun h => State.readByte_of_memory (State.isDevice_eq_false_iff.2 h) p,
      fun h => State.readByte_device_answer (hdevice.1 h) p, fun b v => ⟨?_, ?_⟩⟩
    · rintro ⟨hmem, hab⟩
      rw [State.readByte_writeByte, if_pos ⟨State.isDevice_eq_false_iff.2 hmem, hab⟩]
    · intro h
      rw [State.readByte_writeByte, if_neg]
      rintro ⟨hmem, hab⟩
      exact h.elim (State.isDevice_eq_false_iff.1 hmem) fun hne => hne hab

end Sys2Proof.Machine
end

section
/-! SUPPORT. The stack primitives (R68 to R71): `S` as a number after pushes and pulls, and a pull undoing a push. -/

namespace Sys2Proof.Machine

/-! ### `S` as a number -/

theorem stackBelow_native_toNat (sp : Word) (k : Nat) :
    ((stackBelow false sp k).toNat : Int) = ((sp.toNat : Int) - k) % 65536 := by
  rw [stackBelow_native, BitVec.toNat_sub, BitVec.toNat_ofNat]
  have := sp.isLt
  omega

theorem stackAbove_native_toNat (sp : Word) (k : Nat) :
    ((stackAbove false sp k).toNat : Int) = ((sp.toNat : Int) + k) % 65536 := by
  rw [stackAbove_native, BitVec.toNat_add, BitVec.toNat_ofNat]
  omega

theorem stackBelow_emulation_toNat (sp : Word) (k : Nat) :
    ((stackBelow true sp k).toNat : Int) = (sp.toNat : Int) / 256 * 256 + ((sp.toNat : Int) - k) % 256 := by
  rw [stackBelow_emulation, word16_toNat, BitVec.toNat_sub, BitVec.toNat_ofNat, loByte_toNat, hiByte_toNat]
  omega

theorem stackAbove_emulation_toNat (sp : Word) (k : Nat) :
    ((stackAbove true sp k).toNat : Int) = (sp.toNat : Int) / 256 * 256 + ((sp.toNat : Int) + k) % 256 := by
  rw [stackAbove_emulation, word16_toNat, BitVec.toNat_add, BitVec.toNat_ofNat, loByte_toNat, hiByte_toNat]
  omega

theorem stackUp_stackDown (e : Bool) (sp : Word) : stackUp e (stackDown e sp) = sp := by
  cases e <;> simp [stackUp, stackDown]

/-! ### A pull where `S` was pushed down from -/

/-- Where memory and `S` alone have changed, a read outside `IO_REGION` yields what memory holds now. -/
theorem State.readByte_of_stack {s : State} {a : Addr} (h : s.isDevice a = false) (p : ReadPurpose) (m : Memory)
    (sp : Word) : State.readByte { s with mem := m, s := sp } p a = m.read a.toNat :=
  State.readByte_of_memory (s := { s with mem := m, s := sp }) h p

/-- A pull that comes back to the `S` of before yields the byte in memory there. -/
theorem State.pull8_of_below {s : State} (m : Memory) (h : s.isDevice (bankAddr 0 s.s) = false) :
    State.pull8 { s with mem := m, s := stackDown s.e s.s } =
      (m.read (bankAddr 0 s.s).toNat, { s with mem := m }) := by
  simp only [State.pull8, stackUp_stackDown, State.readByte_of_stack h]

theorem State.pullN8_of_below {s : State} (m : Memory) (h : s.isDevice (bankAddr 0 s.s) = false) :
    State.pullN8 { s with mem := m, s := s.s - 1 } = (m.read (bankAddr 0 s.s).toNat, { s with mem := m }) := by
  simp only [State.pullN8, sub_add_cancel, State.readByte_of_stack h]

/-! ### A pull after a push -/

theorem State.pull8_push8 {s : State} (b : Byte) (h : s.isDevice (bankAddr 0 s.s) = false) :
    (s.push8 b).pull8 = (b, { s with mem := (s.push8 b).mem }) := by
  rw [State.push8, State.pull8_of_below _ h, Memory.read_write, if_pos rfl]

theorem State.pullN8_pushN8 {s : State} (b : Byte) (h : s.isDevice (bankAddr 0 s.s) = false) :
    (s.pushN8 b).pullN8 = (b, { s with mem := (s.pushN8 b).mem }) := by
  rw [State.pushN8, State.pullN8_of_below _ h, Memory.read_write, if_pos rfl]

/-- The low byte, pushed last, is pulled first; its push left the high byte above it alone. -/
theorem State.pull16_push16 {s : State} (v : Word) (h0 : s.isDevice (s.pushAddr 0) = false)
    (h1 : s.isDevice (s.pushAddr 1) = false) : (s.push16 v).pull16 = (v, { s with mem := (s.push16 v).mem }) := by
  have hlo : (s.push16 v).pull8 =
      (loByte v, { s with mem := (s.push16 v).mem, s := stackDown s.e s.s }) := State.pull8_push8 (loByte v) h1
  have hhi : (s.push16 v).mem.read (bankAddr 0 s.s).toNat = hiByte v :=
    pushList_pushed [hiByte v, loByte v] s (by simp) 0 (by simp)
  simp only [State.pull16, hlo, State.pull8_of_below (s.push16 v).mem h0, hhi, word16_lo_hi]

theorem State.pullN16_pushN16 {s : State} (v : Word) (h0 : s.isDevice (bankAddr 0 s.s) = false)
    (h1 : s.isDevice (bankAddr 0 (s.s - 1)) = false) :
    (s.pushN16 v).pullN16 = (v, { s with mem := (s.pushN16 v).mem }) := by
  have hlo : (s.pushN16 v).pullN8 =
      (loByte v, { s with mem := (s.pushN16 v).mem, s := s.s - 1 }) := State.pullN8_pushN8 (loByte v) h1
  have hhi : (s.pushN16 v).mem.read (bankAddr 0 s.s).toNat = hiByte v := by
    have hpushed := pushNList_pushed [hiByte v, loByte v] s (by simp) 0 (by simp)
    rwa [BitVec.ofNat_eq_ofNat, BitVec.sub_zero] at hpushed
  simp only [State.pullN16, hlo, State.pullN8_of_below (s.pushN16 v).mem h0, hhi, word16_lo_hi]

/-- Settles O59, from `S` as a number and the pull of each push. -/
theorem stackPrimitives : Obligations.StackPrimitives :=
  ⟨fun sp k => ⟨stackBelow_native_toNat sp k, stackAbove_native_toNat sp k, stackBelow_emulation_toNat sp k,
    stackAbove_emulation_toNat sp k⟩,
    fun b v _ => ⟨fun h => ⟨State.pull8_push8 b h, State.pullN8_pushN8 b h⟩, State.pull16_push16 v,
      State.pullN16_pushN16 v⟩⟩

end Sys2Proof.Machine
end

section
/-! SUPPORT. The memory frame (R61, R65): what memory keeps over each operation that stores, then over the instructions
of each row, then over all. -/

namespace Sys2Proof.Machine

/-- The instruction answers a next state that keeps every byte it does not store to. -/
def ExecKeepsBytes (s : State) (i : Instr) : Prop := ∃ t, exec i s = .next t ∧ keepsBytes s t (stores s i)

/-! ### Operations that keep bytes -/

theorem keepsBytes_of_mem {s t : State} (h : t.mem = s.mem) (written : List Addr) : keepsBytes s t written := by
  intro a _
  simp only [State.byteAt, h]

/-- A change of other fields before a store and after it does not matter. -/
theorem keepsBytes_congr {s t u v : State} {written : List Addr} (hs : t.mem = s.mem) (hv : v.mem = u.mem)
    (h : keepsBytes t u written) : keepsBytes s v written := by
  intro a ha
  have := h a ha
  simpa only [State.byteAt, hs, hv] using this

theorem keepsBytes_interrupt (k : Event) (s : State) :
    keepsBytes s (s.interrupt k) (s.pushAddrs (frameBytes s.e)) := by
  have hframe := pushList_keepsBytes (frame s s.pc (pushedStatus s.e s.p k)) s
  rw [frame_length] at hframe
  exact keepsBytes_congr rfl (by rw [State.interrupt_spec]) hframe

/-- One iteration of a block move stores one byte (R290). -/
theorem keepsBytes_blockStep (s : State) (dstbank srcbank : Byte) (dir : Word) :
    ∃ t, s.blockStep dstbank srcbank dir = .next t ∧ keepsBytes s t [bankAddr dstbank s.y] := by
  refine ⟨_, rfl, fun a ha => ?_⟩
  exact State.byteAt_writeByte_other (by simpa using ha) _ s

/-! ### The stores of the rows -/

theorem stores_of_storeRow {i : Instr} {op : StoreOp} {f : MemForm} (h : storeRow i = some (op, f)) (s : State) :
    stores s i = locBytes (s.loc f) (op.width s) := by
  rw [stores, h]

theorem stores_of_modifyRow {i : Instr} {op : ModifyOp} {f : MemForm} (h : modifyRow i = some (op, some f))
    (s : State) : stores s i = locBytes (s.loc f) s.wA := by
  cases i <;> cases h <;> rfl

theorem stores_of_testRow {i : Instr} {set : Bool} {f : MemForm} (h : testRow i = some (set, f)) (s : State) :
    stores s i = locBytes (s.loc f) s.wA := by
  cases i <;> cases h <;> rfl

theorem widthBytes_flag (b : Bool) (v : Word) :
    widthBytes (if b then .w8 else .w16) = (if b then [loByte v] else [hiByte v, loByte v]).length := by cases b <;> rfl

theorem stores_of_pushRow {i : Instr} {bytes : List Byte} {s : State} (h : pushRow s i = some bytes) :
    stores s i = s.pushAddrs bytes.length := by
  cases i <;> cases h
  case pha => exact congrArg s.pushAddrs (widthBytes_flag _ s.c)
  case phx => exact congrArg s.pushAddrs (widthBytes_flag _ s.x)
  case phy => exact congrArg s.pushAddrs (widthBytes_flag _ s.y)
  case phb | phk | php => rfl

theorem stores_of_pushNRow {i : Instr} {v : Word} {s : State} (h : pushNRow s i = some v) :
    stores s i = s.pushNAddrs 2 := by
  cases i <;> cases h <;> rfl

/-! ### The frame of each instruction -/

theorem execKeepsBytes_of_mem {i : Instr} {s t : State} (h : exec i s = .next t) (hm : t.mem = s.mem) :
    ExecKeepsBytes s i :=
  ⟨t, h, keepsBytes_of_mem hm _⟩

theorem execKeepsBytes_of_branch {i : Instr} {s : State} {taken : Bool} {rel : Byte}
    (h : exec i s = s.branch taken rel) : ExecKeepsBytes s i := by
  cases taken <;> exact execKeepsBytes_of_mem h rfl

/-- Instructions with a meaning of their own: calls and software interrupts push, block moves store a byte, the others
leave memory alone. -/
theorem execKeepsBytes_of_noRow {i : Instr} {s : State} (hread : readRow i = none) (hstore : storeRow i = none)
    (hmodify : modifyRow i = none) (htest : testRow i = none) (hbranch : branchRow i = none) (hflag : flagRow i = none)
    (hpush : pushRow s i = none) (hpushN : pushNRow s i = none) : ExecKeepsBytes s i := by
  cases i
  case brk | cop => exact ⟨_, rfl, keepsBytes_interrupt _ (s.advance 2)⟩
  case jsrAbs => exact ⟨_, rfl, pushList_keepsBytes [_, _] (s.advance 3)⟩
  case jsrAbsXInd => exact ⟨_, rfl, pushNList_keepsBytes [_, _] (s.advance 3)⟩
  case jsl => exact ⟨_, rfl, pushNList_keepsBytes [_, _, _] (s.advance 4)⟩
  case mvn | mvp => exact keepsBytes_blockStep s _ _ _
  case bra => exact execKeepsBytes_of_branch rfl
  case brl | jmpAbs | jmpAbsInd | jmpAbsXInd | jmlLong | jmlAbsIndL | rts | rtl | nop | wdm | stp | wai | inx | iny | dex
      | dey | tax | tay | tsx | txa | txy | tya | tyx | tdc | tsc | tcd | tcs | txs | xba | plb | pld | plp | rep | sep
      | xce =>
    exact execKeepsBytes_of_mem rfl (by simp)
  case pla | plx | ply => exact execKeepsBytes_of_mem rfl (State.pullW_mem _ (s.advance 1))
  case rti => exact execKeepsBytes_of_mem rfl (State.returnFromInterrupt_mem (s.advance 1))
  all_goals contradiction

theorem execKeepsBytes (s : State) (i : Instr) : ExecKeepsBytes s i := by
  cases rowOf s i with
  | read h => exact execKeepsBytes_of_mem (exec_of_readRow h s) (by rw [ReadOp.apply_eq]; rfl)
  | store h =>
    exact ⟨_, exec_of_storeRow h s, stores_of_storeRow h s ▸ State.keepsBytes_writeLoc _ _ _ (s.advance _)⟩
  | modifyAcc h => exact execKeepsBytes_of_mem (exec_of_modifyRow_acc h s) (by rw [ModifyOp.apply_eq]; rfl)
  | @modifyMem op f h =>
    have hop : (op.apply (s.advance (encode i).length) (s.operand f s.wA)).2.mem = s.mem := by
      rw [ModifyOp.apply_eq, State.advance_mem]
    exact ⟨_, exec_of_modifyRow_mem h s,
      stores_of_modifyRow h s ▸ keepsBytes_congr hop (State.setNZ_mem _ _ _) (State.keepsBytes_writeBack _ _ _ _)⟩
  | test h =>
    exact ⟨_, exec_of_testRow h s,
      stores_of_testRow h s ▸ State.keepsBytes_writeBack _ _ _ ((s.advance _).setFlag .z _)⟩
  | branch h => exact execKeepsBytes_of_branch (exec_of_branchRow h s)
  | flag h => exact execKeepsBytes_of_mem (exec_of_flagRow h s) rfl
  | push h => exact ⟨_, exec_of_pushRow h, stores_of_pushRow h ▸ pushList_keepsBytes _ (s.advance _)⟩
  | pushN h => exact ⟨_, exec_of_pushNRow h, stores_of_pushNRow h ▸ pushNList_keepsBytes [_, _] (s.advance _)⟩
  | own hread hstore hmodify htest hbranch hflag hpush hpushN =>
    exact execKeepsBytes_of_noRow hread hstore hmodify htest hbranch hflag hpush hpushN

/-- Settles O12, by the row of the instruction. -/
theorem memoryFrame : Obligations.MemoryFrame :=
  fun i s => execKeepsBytes s i

end Sys2Proof.Machine
end

section
/-! SUPPORT. The fetch (R28, R66): the bytes at `PBR:PC` are those of the instruction that lies there, and decoding them
gives it back. -/

namespace Sys2Proof

/-! ### Encoded instructions -/

/-- Decoding undoes encoding (R92, R95), by the format of the operand: a 16-bit one, a 24-bit one, an immediate, and the
formats whose operand bytes stand in the instruction as they are. The opcode given to the laws of the first two is
immaterial: it stands only in the answer to bytes that end too early. -/
theorem decode_encode {m x : Bool} {i : Instr} (h : i.wf m x = true) (rest : List Byte) :
    decode m x (encode i ++ rest) = .ok (i, rest) := by
  cases i
  case tsbAbs | oraAbs | aslAbs | oraAbsY | trbAbs | oraAbsX | aslAbsX | jsrAbs | bitAbs | andAbs | rolAbs
      | andAbsY | bitAbsX | andAbsX | rolAbsX | jmpAbs | eorAbs | lsrAbs | eorAbsY | eorAbsX | lsrAbsX | per | jmpAbsInd
      | adcAbs | rorAbs | adcAbsY | jmpAbsXInd | adcAbsX | rorAbsX | brl | styAbs | staAbs | stxAbs | staAbsY | stzAbs
      | staAbsX | stzAbsX | ldyAbs | ldaAbs | ldxAbs | ldaAbsY | ldyAbsX | ldaAbsX | ldxAbsY | cpyAbs | cmpAbs
      | decAbs | cmpAbsY | jmlAbsIndL | cmpAbsX | decAbsX | cpxAbs | sbcAbs | incAbs | pea | sbcAbsY | jsrAbsXInd
      | sbcAbsX | incAbsX =>
    exact operand16_wordBytes 0 _ _ rest
  case oraLong | oraLongX | jsl | andLong | andLongX | eorLong | jmlLong | eorLongX | adcLong | adcLongX | staLong
      | staLongX | ldaLong | ldaLongX | cmpLong | cmpLongX | sbcLong | sbcLongX =>
    exact operand24_addrBytes 0 _ _ rest
  case oraImm | andImm | eorImm | adcImm | bitImm | ldyImm | ldxImm | ldaImm | cpyImm | cmpImm | cpxImm
      | sbcImm =>
    exact immOperand_immBytes _ _ _ _ rest h
  all_goals rfl

/-- An instruction takes one to four bytes (R91). -/
theorem encode_length_bounds (i : Instr) : 1 ≤ (encode i).length ∧ (encode i).length ≤ 4 := by
  cases i
  case oraImm | andImm | eorImm | adcImm | bitImm | ldyImm | ldxImm | ldaImm | cpyImm | cmpImm | cpxImm
      | sbcImm =>
    exact Laws.EncodedLength.of_immBytes _ _
  all_goals exact ⟨Nat.le_add_left _ _, Nat.le_of_ble_eq_true rfl⟩

theorem exists_of_operand16 {op : Byte} {f : Word → Instr} {bytes rest : List Byte} {i : Instr}
    (h : operand16 op f bytes = .ok (i, rest)) : ∃ v, i = f v := by
  unfold operand16 at h
  split at h
  · cases h
    exact ⟨_, rfl⟩
  · cases h

theorem exists_of_operand24 {op : Byte} {f : Addr → Instr} {bytes rest : List Byte} {i : Instr}
    (h : operand24 op f bytes = .ok (i, rest)) : ∃ v, i = f v := by
  unfold operand24 at h
  split at h
  · cases h
    exact ⟨_, rfl⟩
  · cases h

section
variable {m x : Bool} {i : Instr} {bytes : List Byte} (hwf : i.wf m x = true)
include hwf

theorem decode_of_encode_eq (h : encode i = bytes) : decode m x bytes = .ok (i, []) := by
  have hd := decode_encode hwf []
  rwa [List.append_nil, h] at hd

/-- Opcode 22 is JSL. -/
theorem eq_jsl_of_encode (h : encode i = 0x22 :: bytes) : ∃ target, i = .jsl target :=
  exists_of_operand24 (op := 0x22) (decode_of_encode_eq hwf h)

/-- Opcode FC is JSR `(abs,X)`. -/
theorem eq_jsrAbsXInd_of_encode (h : encode i = 0xFC :: bytes) : ∃ abs, i = .jsrAbsXInd abs :=
  exists_of_operand16 (op := 0xFC) (decode_of_encode_eq hwf h)

end

end Sys2Proof

namespace Sys2Proof.Machine

/-! ### Fetched bytes -/

/-- The address of an instruction byte as a number: the offset wraps inside the bank. -/
theorem bankAddr_add_ofNat (bank : Byte) (offset : Word) (k : Nat) :
    bankAddr bank (offset + BitVec.ofNat 16 k) =
      BitVec.ofNat 24 (bank.toNat * 65536 + (offset.toNat + k) % 65536) := by
  apply BitVec.eq_of_toNat_eq
  rw [bankAddr_toNat, BitVec.toNat_add, BitVec.toNat_ofNat, BitVec.toNat_ofNat]
  have := bank.isLt
  omega

/-- Where the pushes of JSL and JSR `(abs,X)` leave the byte fetched after them alone, all four bytes are as they stand
before the instruction. -/
theorem State.fetchBytes_eq {s : State}
    (hjsl : s.instrByte 0 = 0x22 → (s.pushN8 s.pbr).instrByte 3 = s.instrByte 3)
    (hjsr : s.instrByte 0 = 0xFC → (s.pushN16 (s.pc + 2)).instrByte 2 = s.instrByte 2) :
    s.fetchBytes = (List.range 4).map s.instrByte := by
  have hrange : (List.range 4).map s.instrByte = [s.instrByte 0, s.instrByte 1, s.instrByte 2, s.instrByte 3] := rfl
  rw [hrange, State.fetchBytes]
  split
  next h => rw [hjsl h]
  next =>
    split
    next h => rw [hjsr h]
    next => rfl

/-- With nothing in the way, a step executes the instruction that the fetched bytes decode to (R349). -/
theorem step_of_decode {s : State} {i : Instr} {rest : List Byte} (h : s.undisturbed)
    (hd : decode (s.flag .m) (s.flag .x) s.nextInput.fetchBytes = .ok (i, rest)) : step s = exec i s.nextInput := by
  rw [step, State.boundary_of_undisturbed h]
  simp only [fetchAndExecute, State.nextInput_flag, hd]

/-- An instruction whose bytes lie at `PBR:PC` is what the fetched bytes begin with. -/
theorem State.encode_prefix_fetchBytes {s : State} {i : Instr} {m x : Bool} (hwf : i.wf m x = true)
    (hbytes : ∀ (k : Nat) (h : k < (encode i).length), s.instrByte k = (encode i)[k])
    (hjsl : (∃ target, i = .jsl target) → (s.pushN8 s.pbr).instrByte 3 = s.instrByte 3)
    (hjsr : (∃ abs, i = .jsrAbsXInd abs) → (s.pushN16 (s.pc + 2)).instrByte 2 = s.instrByte 2) :
    encode i <+: s.fetchBytes := by
  obtain ⟨hpos, hle⟩ := encode_length_bounds i
  obtain ⟨op, bytes, hcons⟩ := List.exists_cons_of_length_pos hpos
  have hop : s.instrByte 0 = op := by simpa only [hcons, List.getElem_cons_zero] using hbytes 0 hpos
  rw [State.fetchBytes_eq (fun h => hjsl (eq_jsl_of_encode hwf (hcons.trans (by rw [← hop, h]))))
    (fun h => hjsr (eq_jsrAbsXInd_of_encode hwf (hcons.trans (by rw [← hop, h])))), List.prefix_iff_getElem]
  exact ⟨by simpa using hle, fun k hk => by simp [hbytes k hk]⟩

/-- Settles O6: the fetched bytes begin with the encoding, which decodes to the instruction. -/
theorem stepFetchesAtProgramCounter : Obligations.StepFetchesAtProgramCounter := by
  intro s i hs hwf t hbytes hjsl hjsr
  have hinstr : ∀ (k : Nat) (h : k < (encode i).length), t.instrByte k = (encode i)[k] := by
    intro k h
    rw [State.instrByte, bankAddr_add_ofNat]
    exact hbytes k h
  obtain ⟨rest, hrest⟩ := State.encode_prefix_fetchBytes hwf hinstr hjsl hjsr
  exact step_of_decode hs (hrest ▸ decode_encode hwf rest)

end Sys2Proof.Machine
end

section
/-! CLAIMS. The encoding of instructions (R90 to R98): what each operand format reads, the format of each opcode, and
from these the claims about decoding and encoding. -/

namespace Sys2Proof

/-! ### What each operand format reads -/

theorem noOperand_eq_ok {i j : Instr} {bytes rest : List Byte} :
    noOperand j bytes = .ok (i, rest) ↔ i = j ∧ bytes = rest := by
  simp [noOperand, eq_comm]

theorem operand8_eq_ok {op : Byte} {f : Byte → Instr} {bytes rest : List Byte} {i : Instr} :
    operand8 op f bytes = .ok (i, rest) ↔ ∃ b, i = f b ∧ bytes = b :: rest := by
  cases bytes with
  | nil => simp [operand8]
  | cons b bytes => simp [operand8, eq_comm]

theorem operand16_eq_ok {op : Byte} {f : Word → Instr} {bytes rest : List Byte} {i : Instr} :
    operand16 op f bytes = .ok (i, rest) ↔ ∃ v, i = f v ∧ bytes = wordBytes v ++ rest := by
  constructor
  · intro h
    match bytes, h with
    | lo :: hi :: _, rfl => exact ⟨word16 lo hi, rfl, by rw [wordBytes_word16]; rfl⟩
  · rintro ⟨v, rfl, rfl⟩
    exact operand16_wordBytes op f v rest

theorem operand24_eq_ok {op : Byte} {f : Addr → Instr} {bytes rest : List Byte} {i : Instr} :
    operand24 op f bytes = .ok (i, rest) ↔ ∃ v, i = f v ∧ bytes = addrBytes v ++ rest := by
  constructor
  · intro h
    match bytes, h with
    | lo :: hi :: bank :: _, rfl => exact ⟨addr24 lo hi bank, rfl, by rw [addrBytes_addr24]; rfl⟩
  · rintro ⟨v, rfl, rfl⟩
    exact operand24_addrBytes op f v rest

theorem immOperand_eq_ok {op : Byte} {flag : Bool} {f : Imm → Instr} {bytes rest : List Byte} {i : Instr} :
    immOperand op flag f bytes = .ok (i, rest) ↔
      ∃ imm : Imm, imm.fits flag = true ∧ i = f imm ∧ bytes = immBytes imm ++ rest := by
  constructor
  · intro h
    cases flag with
    | true =>
      rw [immOperand, if_pos rfl] at h
      obtain ⟨v, hi, hb⟩ := operand8_eq_ok.mp h
      exact ⟨.byte v, rfl, hi, hb⟩
    | false =>
      rw [immOperand, if_neg Bool.false_ne_true] at h
      obtain ⟨v, hi, hb⟩ := operand16_eq_ok.mp h
      exact ⟨.word v, rfl, hi, hb⟩
  · rintro ⟨imm, hfits, rfl, rfl⟩
    exact immOperand_immBytes op flag f imm rest hfits

theorem blockOperand_eq_ok {op : Byte} {f : Byte → Byte → Instr} {bytes rest : List Byte} {i : Instr} :
    blockOperand op f bytes = .ok (i, rest) ↔ ∃ dst src, i = f dst src ∧ bytes = dst :: src :: rest := by
  constructor
  · intro h
    match bytes, h with
    | dst :: src :: _, rfl => exact ⟨dst, src, rfl, rfl⟩
  · rintro ⟨dst, src, rfl, rfl⟩
    rfl

/-! ### The operand format of each opcode -/

/-- `d` reads the operand of the opcode `op` in one of the formats of R95, under the flags m and x, and the instructions
it makes are well formed and encode back to the opcode and that operand. -/
inductive OperandFormat (m x : Bool) (op : Byte) : (List Byte → Decoded) → Prop
  | none {i : Instr} (hwf : i.wf m x = true) (henc : encode i = [op]) : OperandFormat m x op (noOperand i)
  | byte {f : Byte → Instr} (hwf : ∀ b, (f b).wf m x = true) (henc : ∀ b, encode (f b) = [op, b]) :
      OperandFormat m x op (operand8 op f)
  | word {f : Word → Instr} (hwf : ∀ v, (f v).wf m x = true) (henc : ∀ v, encode (f v) = op :: wordBytes v) :
      OperandFormat m x op (operand16 op f)
  | addr {f : Addr → Instr} (hwf : ∀ v, (f v).wf m x = true) (henc : ∀ v, encode (f v) = op :: addrBytes v) :
      OperandFormat m x op (operand24 op f)
  | imm {flag : Bool} {f : Imm → Instr} (hwf : ∀ v, (f v).wf m x = v.fits flag)
      (henc : ∀ v, encode (f v) = op :: immBytes v) : OperandFormat m x op (immOperand op flag f)
  | block {f : Byte → Byte → Instr} (hwf : ∀ dst src, (f dst src).wf m x = true)
      (henc : ∀ dst src, encode (f dst src) = [op, dst, src]) : OperandFormat m x op (blockOperand op f)

/-- The opcode map agrees with the encoder and with well-formedness at every opcode byte (R96, R98): the row shows the
format, and the encoder and `Instr.wf` are evaluated at the row's instruction. -/
theorem operandFormat (m x : Bool) (op : Byte) : OperandFormat m x op (decodeOperand m x op) := by
  obtain ⟨⟨n, hn⟩⟩ := op
  have hbyte : n < 256 := hn
  interval_cases n
  all_goals constructor <;> intros <;> rfl

section
variable {m x : Bool} {op : Byte} {d : List Byte → Decoded}

/-- Read back by its format, an instruction is well formed and encodes to the opcode and the operand bytes taken. -/
theorem OperandFormat.sound (hf : OperandFormat m x op d) {bytes rest : List Byte} {i : Instr}
    (hd : d bytes = .ok (i, rest)) : i.wf m x = true ∧ encode i ++ rest = op :: bytes := by
  cases hf with
  | none hwf henc =>
    obtain ⟨rfl, rfl⟩ := noOperand_eq_ok.mp hd
    exact ⟨hwf, by rw [henc]; rfl⟩
  | byte hwf henc =>
    obtain ⟨b, rfl, rfl⟩ := operand8_eq_ok.mp hd
    exact ⟨hwf b, by rw [henc]; rfl⟩
  | word hwf henc =>
    obtain ⟨v, rfl, rfl⟩ := operand16_eq_ok.mp hd
    exact ⟨hwf v, by rw [henc]; rfl⟩
  | addr hwf henc =>
    obtain ⟨v, rfl, rfl⟩ := operand24_eq_ok.mp hd
    exact ⟨hwf v, by rw [henc]; rfl⟩
  | imm hwf henc =>
    obtain ⟨v, hfits, rfl, rfl⟩ := immOperand_eq_ok.mp hd
    exact ⟨(hwf v).trans hfits, by rw [henc]; rfl⟩
  | block hwf henc =>
    obtain ⟨dst, src, rfl, rfl⟩ := blockOperand_eq_ok.mp hd
    exact ⟨hwf dst src, by rw [henc]; rfl⟩

/-- Three bytes are enough for the operand of every format. -/
theorem OperandFormat.total (hf : OperandFormat m x op d) (a b c : Byte) :
    ∃ i rest, d [a, b, c] = .ok (i, rest) := by
  cases hf with
  | @imm flag _ _ _ => cases flag <;> exact ⟨_, _, rfl⟩
  | _ => exact ⟨_, _, rfl⟩

end

/-! ### The claims -/

/-- Settles O1, by the format of the operand. -/
theorem decodeEncode : Obligations.DecodeEncode := by
  intro m x i rest hwf
  exact decode_encode hwf rest

/-- Settles O2, by the format of the opcode byte. -/
theorem encodeDecode : Obligations.EncodeDecode := by
  intro m x bytes i rest h
  cases bytes with
  | nil => cases h
  | cons op operand => exact (operandFormat m x op).sound h

/-- Settles O3: three bytes hold every operand, and the instruction read encodes back to bytes that begin with the
opcode byte. -/
theorem decodeTotal : Obligations.DecodeTotal := by
  intro m x op a b c
  obtain ⟨i, rest, hd⟩ := (operandFormat m x op).total a b c
  obtain ⟨hpos, hle⟩ := encode_length_bounds i
  have hbytes : encode i ++ rest = [op, a, b, c] := (encodeDecode m x [op, a, b, c] i rest hd).2
  have hhead : (encode i).head? = some op := by
    rw [← List.head?_append_of_ne_nil _ (List.ne_nil_of_length_pos hpos), hbytes, List.head?_cons]
  exact ⟨i, rest, hd, hhead, hpos, hle⟩

/-- Settles O4: each word is evaluated by the decoder. -/
theorem sampleWordsDecode : Obligations.SampleWordsDecode :=
  ⟨rfl, rfl, rfl, rfl, rfl, rfl, rfl, rfl, rfl, rfl⟩

end Sys2Proof
end

section
/-! SUPPORT. What a modifying operation computes, as a number (R167, R170, R182, R185, R187, R189), and the
instructions that modify the accumulator (R137). -/

namespace Sys2Proof.Machine

/-! ### The arithmetic of a modifying operation -/

theorem two_pow_bits (w : Width) : 2 ^ w.bits = 2 * 2 ^ (w.bits - 1) := by cases w <;> rfl

theorem trunc_shiftLeft_toNat (w : Width) (v : Word) : (trunc w (v <<< 1)).toNat = 2 * v.toNat % 2 ^ w.bits := by
  have hdvd : 2 ^ w.bits ∣ 2 ^ 16 := by cases w <;> decide
  rw [trunc_toNat, BitVec.toNat_shiftLeft, Nat.shiftLeft_eq, Nat.mod_mod_of_dvd _ hdvd, Nat.mul_comm, pow_one]

theorem getLsbD_zero_eq_decide (v : Word) : v.getLsbD 0 = decide (v.toNat % 2 = 1) := by
  rw [BitVec.getLsbD, Nat.testBit_zero]

/-- The carry enters at bit 0, which the shift has cleared. -/
theorem rotateLeft_toNat (w : Width) (cin : Bool) (v : Word) :
    (rotateLeft w cin v).1.toNat = (2 * v.toNat + cin.toNat) % 2 ^ w.bits := by
  have hbit : (if cin then 1 else 0 : Word).toNat = cin.toNat := by cases cin <;> rfl
  have hcin : cin.toNat < 2 ^ 1 := by cases cin <;> decide
  have hshift : 2 * v.toNat % 2 ^ w.bits = (v.toNat % 2 ^ (w.bits - 1)) <<< 1 := by
    rw [two_pow_bits, Nat.mul_mod_mul_left, Nat.shiftLeft_eq, pow_one, Nat.mul_comm]
  have hsum : (2 * v.toNat + cin.toNat) / 2 = v.toNat ∧ (2 * v.toNat + cin.toNat) % 2 = cin.toNat := by omega
  rw [rotateLeft, BitVec.toNat_or, trunc_shiftLeft_toNat, hbit, hshift, ← Nat.shiftLeft_add_eq_or_of_lt hcin,
    two_pow_bits, Nat.mod_mul, hsum.1, hsum.2, Nat.shiftLeft_eq, pow_one, Nat.mul_comm, Nat.add_comm]

/-- The carry enters at the top bit, which the shift has cleared. -/
theorem rotateRight_toNat {w : Width} (cin : Bool) {v : Word} (hv : v.toNat < 2 ^ w.bits) :
    (rotateRight w cin v).1.toNat = v.toNat / 2 + cin.toNat * 2 ^ (w.bits - 1) := by
  have hbit : (if cin then 1#16 <<< (w.bits - 1) else 0).toNat = cin.toNat <<< (w.bits - 1) := by
    cases cin <;> cases w <;> rfl
  have hhalf : v.toNat / 2 < 2 ^ (w.bits - 1) := by
    rw [two_pow_bits] at hv; omega
  rw [rotateRight, trunc_of_lt hv, BitVec.toNat_or, BitVec.toNat_ushiftRight, Nat.shiftRight_eq_div_pow, pow_one, hbit,
    Nat.or_comm, ← Nat.shiftLeft_add_eq_or_of_lt hhalf, Nat.shiftLeft_eq, Nat.add_comm]

theorem trunc_add_one_toNat (w : Width) (v : Word) : (trunc w (v + 1)).toNat = (v.toNat + 1) % 2 ^ w.bits := by
  rw [trunc_toNat]
  cases w <;> simp [Width.bits]

theorem trunc_sub_one_toNat (w : Width) (v : Word) :
    (trunc w (v - 1)).toNat = (v.toNat + 2 ^ w.bits - 1) % 2 ^ w.bits := by
  rw [trunc_toNat]
  cases w <;> simp [Width.bits, BitVec.toNat_sub] <;> omega

/-- The value a modifying operation puts back, as a number. -/
theorem ModifyOp.apply_toNat (op : ModifyOp) {t : State} {v : Word} (hv : v.toNat < 2 ^ t.wA.bits) :
    (op.apply t v).1.toNat = op.result t.wA (t.flag .c) v.toNat := by
  cases op with
  | asl => exact trunc_shiftLeft_toNat t.wA v
  | lsr =>
    show (trunc t.wA v >>> 1).toNat = v.toNat / 2
    rw [trunc_of_lt hv, BitVec.toNat_ushiftRight, Nat.shiftRight_eq_div_pow, pow_one]
  | rol => exact rotateLeft_toNat t.wA (t.flag .c) v
  | ror => exact rotateRight_toNat (t.flag .c) hv
  | inc => exact trunc_add_one_toNat t.wA v
  | dec => exact trunc_sub_one_toNat t.wA v

/-- The carry a modifying operation leaves. -/
theorem ModifyOp.flag_c_apply (op : ModifyOp) {t : State} {v : Word} (hv : v.toNat < 2 ^ t.wA.bits) :
    (op.apply t v).2.flag .c = op.carry t.wA (t.flag .c) v.toNat := by
  cases op with
  | asl | rol => exact (State.flag_setFlag_same _ _ _).trans (msb_of_lt hv)
  | lsr | ror => exact (State.flag_setFlag_same _ _ _).trans (getLsbD_zero_eq_decide v)
  | inc | dec => rfl

/-- The result is a value of the width. -/
theorem ModifyOp.result_lt (op : ModifyOp) {w : Width} (cin : Bool) {v : Nat} (hv : v < 2 ^ w.bits) :
    op.result w cin v < 2 ^ w.bits := by
  cases op with
  | asl | rol | inc | dec => exact Nat.mod_lt _ (Nat.two_pow_pos _)
  | lsr => exact Nat.lt_of_le_of_lt (Nat.div_le_self v 2) hv
  | ror =>
    have hcin : cin.toNat * 2 ^ (w.bits - 1) ≤ 2 ^ (w.bits - 1) := by cases cin <;> simp
    rw [two_pow_bits] at hv ⊢
    simp only [ModifyOp.result]
    omega

theorem ModifyOp.flags_subset (op : ModifyOp) : op.flags ⊆ [.n, .z, .c] := by cases op <;> simp [ModifyOp.flags]

theorem ModifyOp.apply_c (op : ModifyOp) (v : Word) (t : State) : (op.apply t v).2.c = t.c := by rw [op.apply_eq]

theorem State.flag_c_setNZ (w : Width) (v : Word) (s : State) : (s.setNZ w v).flag .c = s.flag .c :=
  State.keepsFlags_setNZ w v s .c (by decide)

/-! ### The claim -/

/-- Settles O25: the operation's result is put into the accumulator, and n and z describe it. -/
theorem modifyAccumulator : Obligations.ModifyAccumulator := by
  intro i op s hrow w v
  let t := s.advance (encode i).length
  have hv : v < 2 ^ t.wA.bits := areg_toNat_lt s w
  have hresult : (op.apply t (s.areg w)).1.toNat = op.result w (s.flag .c) v := op.apply_toNat hv
  have hcarry : (op.apply t (s.areg w)).2.flag .c = op.carry w (s.flag .c) v := op.flag_c_apply hv
  have hlt : (op.apply t (s.areg w)).1.toNat < 2 ^ w.bits := by rw [hresult]; exact op.result_lt _ hv
  refine ⟨_, exec_of_modifyRow_acc hrow s, ?acc, ?carry, ?nz, ?high, ?flags, ?pc, ?rest⟩
  case acc => rw [State.setNZ_areg, State.areg_setA, trunc_of_lt hlt, hresult]
  case carry => rw [State.flag_c_setNZ]; exact hcarry
  case nz => rw [← hresult]; exact State.nzOf_setNZ hlt _
  case high =>
    intro hw
    rw [State.setNZ_c, State.keepsB_setA _ _ _ hw, op.apply_c, State.advance_c]
  case flags => exact (keepsFlags_modify op _ w rfl rfl).mono op.flags_subset
  case pc => exact goesOn_advance (by simp [op.apply_pc])
  case rest => rw [op.apply_eq]; rfl

end Sys2Proof.Machine
end

section
/-! SUPPORT. The addresses of operands over numbers (R62, R63, R120 to R136, R148 to R150). An address the model
computes is spelled `BitVec.ofNat 24 n`, so that a rule's arithmetic on `n` names the byte that is read. -/

namespace Sys2Proof.Machine

/-! ### Sums of words and addresses -/

theorem ofNat24_toNat {n : Nat} (h : n < 2 ^ 24) : (BitVec.ofNat 24 n).toNat = n := by
  rw [BitVec.toNat_ofNat, Nat.mod_eq_of_lt h]

theorem addr_eq_ofNat {a : Addr} {n : Nat} (h : a.toNat = n) : a = .ofNat 24 n := by
  rw [← h, BitVec.ofNat_toNat, BitVec.setWidth_eq]

/-- A word added to an operand byte. -/
theorem ofs_add_eq_ofNat (o : Byte) (v : Word) : o.setWidth 16 + v = BitVec.ofNat 16 (o.toNat + v.toNat) := by
  rw [BitVec.ofNat_add, BitVec.ofNat_toNat, BitVec.ofNat_toNat, BitVec.setWidth_eq]

theorem add_ofs_eq_ofNat (o : Byte) (v : Word) : v + o.setWidth 16 = BitVec.ofNat 16 (v.toNat + o.toNat) := by
  rw [BitVec.add_comm, ofs_add_eq_ofNat, Nat.add_comm]

theorem ofNat16_add_one (n : Nat) : BitVec.ofNat 16 n + 1 = .ofNat 16 (n + 1) := (BitVec.ofNat_add n 1).symm

theorem ofNat16_add_two (n : Nat) : BitVec.ofNat 16 n + 2 = .ofNat 16 (n + 2) := (BitVec.ofNat_add n 2).symm

theorem bankAddr_zero_toNat (v : Word) : (bankAddr 0 v).toNat = v.toNat := by simp [bankAddr_toNat]

/-- An offset of bank 0 wraps inside the bank (R63). -/
theorem bankAddr_zero_ofNat (n : Nat) : bankAddr 0 (.ofNat 16 n) = .ofNat 24 (n % 65536) :=
  addr_eq_ofNat (by rw [bankAddr_zero_toNat, BitVec.toNat_ofNat])

theorem bankAddr_eq_ofNat (b : Byte) (v : Word) : bankAddr b v = .ofNat 24 (b.toNat * 65536 + v.toNat) :=
  addr_eq_ofNat (bankAddr_toNat b v)

theorem bankAddr_num_lt (b : Byte) (v : Word) : b.toNat * 65536 + v.toNat < 2 ^ 24 := by
  have := b.isLt; have := v.isLt
  omega

/-- An index register is added to the 24-bit address, carrying into the bank (R120). -/
theorem add_index_eq_ofNat (n : Nat) (v : Word) :
    BitVec.ofNat 24 n + v.setWidth 24 = .ofNat 24 ((n + v.toNat) % 2 ^ 24) := by
  apply addr_eq_ofNat
  rw [BitVec.toNat_add, BitVec.toNat_ofNat, BitVec.toNat_setWidth, ← Nat.add_mod]

/-! ### What a location holds -/

/-- The byte read at a numbered address, as a number. -/
def State.byteNum (s : State) (p : ReadPurpose) (n : Nat) : Nat := (s.readByte p (.ofNat 24 n)).toNat

/-- A form names the byte at a number, and reads an operand there whose high byte is at another (R121, R148). -/
def State.ReadsAt (s : State) (f : MemForm) (a next : Nat) : Prop :=
  (s.loc f).addr.toNat = a ∧ (s.operand f .w8).toNat = s.byteNum .data a ∧
    (s.operand f .w16).toNat = s.byteNum .data a + 256 * s.byteNum .data next

theorem readsAt_of_loc {s : State} {f : MemForm} {k : LocKind} {a next : Nat} (ha : a < 2 ^ 24)
    (hloc : s.loc f = ⟨.ofNat 24 a, k⟩) (hnext : Loc.next ⟨.ofNat 24 a, k⟩ = .ofNat 24 next) : s.ReadsAt f a next := by
  refine ⟨by rw [hloc, ofNat24_toNat ha], ?_, ?_⟩
  · rw [State.operand, hloc, State.readLoc, BitVec.toNat_setWidth,
      Nat.mod_eq_of_lt (Nat.lt_trans (BitVec.isLt _) (by decide))]
    rfl
  · rw [State.operand, hloc, State.readLoc, State.read16, word16_toNat, hnext]
    rfl

/-- A 16-bit operand of a `lin` form runs on over the end of the bank (R63). -/
theorem readsAt_of_loc_lin {s : State} {f : MemForm} {a : Nat} (ha : a < 2 ^ 24)
    (hloc : s.loc f = ⟨.ofNat 24 a, .lin⟩) : s.ReadsAt f a ((a + 1) % 2 ^ 24) :=
  readsAt_of_loc ha hloc (add_index_eq_ofNat a 1)

/-- The location of an indexed form is cut to 24 bits (R120). -/
theorem readsAt_of_loc_indexed {s : State} {f : MemForm} {n : Nat} (hloc : s.loc f = ⟨.ofNat 24 (n % 2 ^ 24), .lin⟩) :
    s.ReadsAt f (n % 2 ^ 24) ((n % 2 ^ 24 + 1) % 2 ^ 24) :=
  readsAt_of_loc_lin (Nat.mod_lt n (by decide)) hloc

/-- A 16-bit operand of a `b0` form wraps inside bank 0 (R63). -/
theorem readsAt_of_loc_b0 {s : State} {f : MemForm} {a : Nat} (ha : a < 65536) (hloc : s.loc f = ⟨.ofNat 24 a, .b0⟩) :
    s.ReadsAt f a ((a + 1) % 65536) := by
  refine readsAt_of_loc (by omega) hloc ?_
  rw [← bankAddr_zero_ofNat, BitVec.ofNat_add]
  exact congrArg (fun v => bankAddr 0 (v + 1)) (BitVec.setWidth_ofNat_of_le (by decide) a)

/-! ### The forms that name an address -/

theorem loc_abs (s : State) (abs : Word) : s.loc (.abs abs) = ⟨.ofNat 24 (s.dbr.toNat * 65536 + abs.toNat), .lin⟩ := by
  rw [State.loc, bankAddr_eq_ofNat]

theorem loc_long (s : State) (long : Addr) : s.loc (.long long) = ⟨.ofNat 24 long.toNat, .lin⟩ := by
  rw [State.loc, ← addr_eq_ofNat rfl]

theorem loc_absX (s : State) (abs : Word) :
    s.loc (.absX abs) = ⟨.ofNat 24 ((s.dbr.toNat * 65536 + abs.toNat + s.x.toNat) % 2 ^ 24), .lin⟩ := by
  rw [State.loc, bankAddr_eq_ofNat, add_index_eq_ofNat]

theorem loc_absY (s : State) (abs : Word) :
    s.loc (.absY abs) = ⟨.ofNat 24 ((s.dbr.toNat * 65536 + abs.toNat + s.y.toNat) % 2 ^ 24), .lin⟩ := by
  rw [State.loc, bankAddr_eq_ofNat, add_index_eq_ofNat]

theorem loc_longX (s : State) (long : Addr) :
    s.loc (.longX long) = ⟨.ofNat 24 ((long.toNat + s.x.toNat) % 2 ^ 24), .lin⟩ := by
  rw [State.loc, ← add_index_eq_ofNat, ← addr_eq_ofNat rfl]

theorem loc_sr (s : State) (ofs : Byte) : s.loc (.sr ofs) = ⟨.ofNat 24 ((s.s.toNat + ofs.toNat) % 65536), .b0⟩ := by
  rw [State.loc, add_ofs_eq_ofNat, bankAddr_zero_ofNat]

/-- Settles O56: the location of each form as a numbered address, and the operand read there. -/
theorem namedAddresses : Obligations.NamedAddresses := by
  intro abs long ofs s m bank sp
  have hsr : s.ReadsAt (.sr ofs) (sp % 65536) ((sp % 65536 + 1) % 65536) :=
    readsAt_of_loc_b0 (Nat.mod_lt _ (by decide)) (loc_sr s ofs)
  rw [Nat.mod_add_mod] at hsr
  obtain ⟨haddr, hbyte, hword⟩ := hsr
  refine ⟨fun f a hfa => ?_, haddr, hbyte, hword, fun imm wide => ⟨BitVec.toNat_setWidth_of_le (by decide), rfl⟩⟩
  simp only [List.mem_cons, List.not_mem_nil, or_false, Prod.mk.injEq] at hfa
  obtain ⟨rfl, rfl⟩ | ⟨rfl, rfl⟩ | ⟨rfl, rfl⟩ | ⟨rfl, rfl⟩ | ⟨rfl, rfl⟩ := hfa
  · exact readsAt_of_loc_lin (bankAddr_num_lt _ _) (loc_abs s abs)
  · exact readsAt_of_loc_lin long.isLt (loc_long s long)
  · exact readsAt_of_loc_indexed (loc_absX s abs)
  · exact readsAt_of_loc_indexed (loc_absY s abs)
  · exact readsAt_of_loc_indexed (loc_longX s long)

/-! ### The direct page -/

/-- The direct-page address of an offset (R149): in emulation mode on a page boundary inside the page, else inside
bank 0. -/
def State.directNum (s : State) (n : Nat) : Nat :=
  if s.e = true ∧ s.d.toNat % 256 = 0 then s.d.toNat + n % 256 else (s.d.toNat + n) % 65536

theorem State.directNum_lt (s : State) (n : Nat) : s.directNum n < 65536 := by
  have := s.d.isLt
  unfold State.directNum
  split <;> omega

theorem loByte_eq_zero_iff (v : Word) : loByte v = 0 ↔ v.toNat % 256 = 0 := by
  rw [← loByte_toNat, BitVec.toNat_eq]
  rfl

/-- An old form's direct-page address (R149). -/
theorem directAddr_ofNat (s : State) (n : Nat) : s.directAddr (.ofNat 16 n) true = .ofNat 24 (s.directNum n) := by
  have hcond : (true && s.e && loByte s.d == 0) = decide (s.e = true ∧ s.d.toNat % 256 = 0) := by
    simp [← loByte_eq_zero_iff, BEq.beq]
  rw [State.directAddr, hcond, State.directNum]
  by_cases h : s.e = true ∧ s.d.toNat % 256 = 0
  · rw [decide_eq_true h, if_pos rfl, if_pos h]
    apply addr_eq_ofNat
    rw [bankAddr_zero_toNat, word16_toNat, loByte_toNat, hiByte_toNat, BitVec.toNat_ofNat]
    omega
  · rw [decide_eq_false h, if_neg h, if_neg Bool.false_ne_true, ← bankAddr_zero_ofNat, BitVec.ofNat_add,
      BitVec.ofNat_toNat, BitVec.setWidth_eq]

theorem loc_dp (s : State) (o : Byte) : s.loc (.dp o) = ⟨.ofNat 24 (s.directNum o.toNat), .b0⟩ := by
  rw [State.loc, ← BitVec.ofNat_toNat, directAddr_ofNat]

theorem loc_dpX (s : State) (o : Byte) : s.loc (.dpX o) = ⟨.ofNat 24 (s.directNum (o.toNat + s.x.toNat)), .b0⟩ := by
  rw [State.loc, ofs_add_eq_ofNat, directAddr_ofNat]

theorem loc_dpY (s : State) (o : Byte) : s.loc (.dpY o) = ⟨.ofNat 24 (s.directNum (o.toNat + s.y.toNat)), .b0⟩ := by
  rw [State.loc, ofs_add_eq_ofNat, directAddr_ofNat]

/-- Settles O57: the location of each form as a direct-page address. -/
theorem directPageAddresses : Obligations.DirectPageAddresses := by
  intro dp s m direct f n hfn
  have hloc : s.loc f = ⟨.ofNat 24 (s.directNum n), .b0⟩ := by
    simp only [List.mem_cons, List.not_mem_nil, or_false, Prod.mk.injEq] at hfn
    obtain ⟨rfl, rfl⟩ | ⟨rfl, rfl⟩ | ⟨rfl, rfl⟩ := hfn
    · exact loc_dp s dp
    · exact loc_dpX s dp
    · exact loc_dpY s dp
  exact readsAt_of_loc_b0 (s.directNum_lt n) hloc

/-! ### The indirect forms -/

/-- The pointer of (dp), (dp,X) and (dp),Y: each of its two bytes is at a direct-page address (R130, R132, R133). -/
def State.wordNum (s : State) (n : Nat) : Nat :=
  s.byteNum .pointer (s.directNum n) + 256 * s.byteNum .pointer (s.directNum (n + 1))

/-- The pointer of (ofs,S),Y: two bytes of bank 0 (R63, R136). -/
def State.stackWordNum (s : State) (n : Nat) : Nat :=
  s.byteNum .pointer (n % 65536) + 256 * s.byteNum .pointer ((n + 1) % 65536)

/-- The pointer of [dp] and [dp],Y: three bytes of bank 0 (R63, R131, R134). -/
def State.longNum (s : State) (n : Nat) : Nat :=
  s.byteNum .pointer (n % 65536) + 256 * s.byteNum .pointer ((n + 1) % 65536) +
    65536 * s.byteNum .pointer ((n + 2) % 65536)

theorem State.byteNum_lt (s : State) (p : ReadPurpose) (n : Nat) : s.byteNum p n < 256 := BitVec.isLt _

theorem State.longNum_lt (s : State) (n : Nat) : s.longNum n < 2 ^ 24 := by
  have h0 := s.byteNum_lt .pointer (n % 65536)
  have h1 := s.byteNum_lt .pointer ((n + 1) % 65536)
  have h2 := s.byteNum_lt .pointer ((n + 2) % 65536)
  unfold State.longNum
  omega

theorem directPtr_toNat (s : State) (n : Nat) : (s.directPtr (.ofNat 16 n)).toNat = s.wordNum n := by
  rw [State.directPtr, ofNat16_add_one, directAddr_ofNat, directAddr_ofNat, State.read16, word16_toNat]
  rfl

theorem readB0_pointer_toNat (s : State) (n : Nat) : (s.readB0 .pointer (.ofNat 16 n)).toNat = s.stackWordNum n := by
  rw [State.readB0, ofNat16_add_one, bankAddr_zero_ofNat, bankAddr_zero_ofNat, State.read16, word16_toNat]
  rfl

theorem readB0Long_eq_ofNat (s : State) (n : Nat) : s.readB0Long (.ofNat 16 n) = .ofNat 24 (s.longNum n) := by
  apply addr_eq_ofNat
  rw [State.readB0Long, ofNat16_add_one, ofNat16_add_two, bankAddr_zero_ofNat, bankAddr_zero_ofNat,
    bankAddr_zero_ofNat, addr24_toNat]
  rfl

theorem bank_wordNum_lt (s : State) (n : Nat) : s.dbr.toNat * 65536 + s.wordNum n < 2 ^ 24 := by
  rw [← directPtr_toNat]
  exact bankAddr_num_lt _ _

theorem loc_dpInd (s : State) (o : Byte) :
    s.loc (.dpInd o) = ⟨.ofNat 24 (s.dbr.toNat * 65536 + s.wordNum o.toNat), .lin⟩ := by
  rw [State.loc, bankAddr_eq_ofNat, ← BitVec.ofNat_toNat, directPtr_toNat]

theorem loc_dpXInd (s : State) (o : Byte) :
    s.loc (.dpXInd o) = ⟨.ofNat 24 (s.dbr.toNat * 65536 + s.wordNum (o.toNat + s.x.toNat)), .lin⟩ := by
  rw [State.loc, bankAddr_eq_ofNat, ofs_add_eq_ofNat, directPtr_toNat]

theorem loc_dpIndY (s : State) (o : Byte) :
    s.loc (.dpIndY o) = ⟨.ofNat 24 ((s.dbr.toNat * 65536 + s.wordNum o.toNat + s.y.toNat) % 2 ^ 24), .lin⟩ := by
  rw [State.loc, bankAddr_eq_ofNat, ← BitVec.ofNat_toNat, directPtr_toNat, add_index_eq_ofNat]

theorem loc_dpIndL (s : State) (o : Byte) :
    s.loc (.dpIndL o) = ⟨.ofNat 24 (s.longNum (s.d.toNat + o.toNat)), .lin⟩ := by
  rw [State.loc, add_ofs_eq_ofNat, readB0Long_eq_ofNat]

theorem loc_dpIndLY (s : State) (o : Byte) :
    s.loc (.dpIndLY o) = ⟨.ofNat 24 ((s.longNum (s.d.toNat + o.toNat) + s.y.toNat) % 2 ^ 24), .lin⟩ := by
  rw [State.loc, add_ofs_eq_ofNat, readB0Long_eq_ofNat, add_index_eq_ofNat]

theorem loc_srIndY (s : State) (o : Byte) :
    s.loc (.srIndY o) =
      ⟨.ofNat 24 ((s.dbr.toNat * 65536 + s.stackWordNum (s.s.toNat + o.toNat) + s.y.toNat) % 2 ^ 24), .lin⟩ := by
  rw [State.loc, bankAddr_eq_ofNat, add_ofs_eq_ofNat, readB0_pointer_toNat, add_index_eq_ofNat]

/-- Settles O58: the pointer of each form as a number, and the location it gives. -/
theorem indirectAddresses : Obligations.IndirectAddresses := by
  intro o s m p bank direct word d long sp f a hfa
  simp only [List.mem_cons, List.not_mem_nil, or_false, Prod.mk.injEq] at hfa
  obtain ⟨rfl, rfl⟩ | ⟨rfl, rfl⟩ | ⟨rfl, rfl⟩ | ⟨rfl, rfl⟩ | ⟨rfl, rfl⟩ | ⟨rfl, rfl⟩ := hfa
  · exact readsAt_of_loc_lin (bank_wordNum_lt s o.toNat) (loc_dpInd s o)
  · exact readsAt_of_loc_lin (bank_wordNum_lt s (o.toNat + s.x.toNat)) (loc_dpXInd s o)
  · exact readsAt_of_loc_indexed (loc_dpIndY s o)
  · exact readsAt_of_loc_lin (s.longNum_lt _) (loc_dpIndL s o)
  · exact readsAt_of_loc_indexed (loc_dpIndLY s o)
  · exact readsAt_of_loc_indexed (loc_srIndY s o)

end Sys2Proof.Machine
end

section
/-! SUPPORT. Binary and decimal addition and subtraction as numbers (R160, R161), the difference a comparison takes
(R162), and what the end of an ADC or SBC leaves in the state. -/

namespace Sys2Proof.Machine

/-! ### Binary addition and subtraction (R160) -/

theorem two_pow_bits_le (w : Width) : 2 ^ w.bits ≤ 2 ^ 16 := by cases w <;> decide

/-- A number cut to a width survives the 16-bit word it is held in. -/
theorem ofNat16_mod_bits_toNat (w : Width) (n : Nat) : (BitVec.ofNat 16 (n % 2 ^ w.bits)).toNat = n % 2 ^ w.bits := by
  have hlt : n % 2 ^ w.bits < 2 ^ 16 := Nat.lt_of_lt_of_le (Nat.mod_lt _ (Nat.two_pow_pos _)) (two_pow_bits_le w)
  rw [BitVec.toNat_ofNat, Nat.mod_eq_of_lt hlt]

theorem addBinary_toNat (w : Width) (a b : Word) (cin : Bool) :
    (addBinary w a b cin).1.toNat = (a.toNat + b.toNat + cin.toNat) % 2 ^ w.bits :=
  ofNat16_mod_bits_toNat w _

theorem addBinary_lt (w : Width) (a b : Word) (cin : Bool) : (addBinary w a b cin).1.toNat < 2 ^ w.bits := by
  rw [addBinary_toNat]
  exact Nat.mod_lt _ (Nat.two_pow_pos _)

theorem outOfRange_iff (w : Width) (r : Int) :
    outOfRange w r = true ↔ r < -2 ^ (w.bits - 1) ∨ 2 ^ (w.bits - 1) ≤ r := by
  simp [outOfRange]

/-- The rule of signs, over numbers: two terms of one sign and a sum of the other say that the signed sum leaves the
range of the width. -/
theorem signs_eq_outOfRange (w : Width) {a b c : Nat} (ha : a < 2 ^ w.bits) (hb : b < 2 ^ w.bits) (hc : c ≤ 1) :
    ((2 ^ (w.bits - 1) ≤ a ↔ 2 ^ (w.bits - 1) ≤ b) ∧
        ¬ (2 ^ (w.bits - 1) ≤ (a + b + c) % 2 ^ w.bits ↔ 2 ^ (w.bits - 1) ≤ a)) ↔
      outOfRange w (signedValue w a + signedValue w b + c) = true := by
  rw [outOfRange_iff]
  cases w <;> simp only [Width.bits, signedValue] at ha hb ⊢ <;> omega

/-- Signed overflow, told by the signs, is an exact sum outside the signed range. -/
theorem addBinary_overflow {w : Width} {a b : Word} (ha : a.toNat < 2 ^ w.bits) (hb : b.toNat < 2 ^ w.bits)
    (cin : Bool) :
    (addBinary w a b cin).2.2 = outOfRange w (signedValue w a.toNat + signedValue w b.toNat + cin.toNat) := by
  have hsum : msb w (addBinary w a b cin).1 =
      decide (2 ^ (w.bits - 1) ≤ (a.toNat + b.toNat + cin.toNat) % 2 ^ w.bits) := by
    rw [msb_of_lt (addBinary_lt w a b cin), addBinary_toNat]
  have hsigns : (addBinary w a b cin).2.2 = (msb w a == msb w b && msb w (addBinary w a b cin).1 != msb w a) := rfl
  rw [hsigns, hsum, msb_of_lt ha, msb_of_lt hb, Bool.eq_iff_iff, ← signs_eq_outOfRange w ha hb (Bool.toNat_le cin)]
  simp

/-- The complement that a subtraction adds. -/
theorem trunc_not_toNat {w : Width} {m : Word} (hm : m.toNat < 2 ^ w.bits) :
    (trunc w (~~~m)).toNat = 2 ^ w.bits - 1 - m.toNat := by
  rw [trunc_toNat, BitVec.toNat_not]
  cases w <;> simp only [Width.bits] at hm ⊢ <;> omega

theorem signedValue_complement {w : Width} {m : Nat} (hm : m < 2 ^ w.bits) :
    signedValue w (2 ^ w.bits - 1 - m) = -1 - signedValue w m := by
  cases w <;> simp only [Width.bits, signedValue] at hm ⊢ <;> omega

/-- What a subtraction takes away beside the operand: one, unless the carry is set. -/
def borrowOf (cin : Bool) : Nat := if cin then 0 else 1

theorem toNat_add_borrowOf (cin : Bool) : cin.toNat + borrowOf cin = 1 := by cases cin <;> rfl

/-- The sum with the complement is the difference less the borrow, modulo `2^w`; a carry out is no borrow; signed
overflow is an exact difference outside the signed range. -/
theorem addBinary_complement {w : Width} {a m : Word} (ha : a.toNat < 2 ^ w.bits) (hm : m.toNat < 2 ^ w.bits)
    (cin : Bool) :
    (addBinary w a (trunc w (~~~m)) cin).1.toNat =
        (a.toNat + 2 ^ (w.bits + 1) - m.toNat - borrowOf cin) % 2 ^ w.bits ∧
      (addBinary w a (trunc w (~~~m)) cin).2.1 = decide (m.toNat + borrowOf cin ≤ a.toNat) ∧
      (addBinary w a (trunc w (~~~m)) cin).2.2 =
        outOfRange w (signedValue w a.toNat - signedValue w m.toNat - borrowOf cin) := by
  have hnot := trunc_not_toNat hm
  have hborrow := toNat_add_borrowOf cin
  refine ⟨?result, ?carry, ?overflow⟩
  case result =>
    rw [addBinary_toNat, hnot, ← Nat.add_mod_right, pow_succ]
    congr 1
    omega
  case carry =>
    simp only [addBinary, hnot]
    apply decide_eq_decide.mpr
    omega
  case overflow =>
    rw [addBinary_overflow ha (trunc_toNat_lt w _), hnot, signedValue_complement hm]
    congr 1
    omega

/-! ### Decimal addition and subtraction (R161) -/

theorem bcdCode_toNat (t : Nat) :
    (bcdCode t).toNat = t % 10 + 16 * (t / 10 % 10) + 256 * (t / 100 % 10) + 4096 * (t / 1000 % 10) := by
  rw [bcdCode, BitVec.toNat_ofNat]
  omega

/-- A word put together from four digits has them as its nibbles. -/
theorem nibbles_of_digits {d₀ d₁ d₂ d₃ : Nat} (h₀ : d₀ < 16) (h₁ : d₁ < 16) (h₂ : d₂ < 16) (h₃ : d₃ < 16) :
    (d₀ + 16 * d₁ + 256 * d₂ + 4096 * d₃) % 16 = d₀ ∧ (d₀ + 16 * d₁ + 256 * d₂ + 4096 * d₃) / 16 % 16 = d₁ ∧
      (d₀ + 16 * d₁ + 256 * d₂ + 4096 * d₃) / 256 % 16 = d₂ ∧
      (d₀ + 16 * d₁ + 256 * d₂ + 4096 * d₃) / 4096 % 16 = d₃ := by
  omega

/-- The digits of a coded number are its decimal digits. -/
theorem bcdDigit_bcdCode (t : Nat) :
    bcdDigit (bcdCode t) 0 = t % 10 ∧ bcdDigit (bcdCode t) 1 = t / 10 % 10 ∧
      bcdDigit (bcdCode t) 2 = t / 100 % 10 ∧ bcdDigit (bcdCode t) 3 = t / 1000 % 10 := by
  simp only [bcdDigit, bcdCode_toNat, Nat.reducePow, Nat.div_one]
  exact nibbles_of_digits (by omega) (by omega) (by omega) (by omega)

theorem bcdValid_bcdCode (t : Nat) : bcdValid (bcdCode t) = true := by
  obtain ⟨hones, htens, hhundreds, hthousands⟩ := bcdDigit_bcdCode t
  simp only [bcdValid, hones, htens, hhundreds, hthousands, Bool.and_eq_true, decide_eq_true_eq]
  omega

theorem bcdVal_bcdCode {t : Nat} (h : t < 10000) : bcdVal (bcdCode t) = t := by
  obtain ⟨hones, htens, hhundreds, hthousands⟩ := bcdDigit_bcdCode t
  rw [bcdVal, hones, htens, hhundreds, hthousands]
  omega

theorem bcdModulus_le (w : Width) : bcdModulus w ≤ 10000 := by cases w <;> decide

theorem bcdModulus_pos (w : Width) : 0 < bcdModulus w := by cases w <;> decide

/-- A number of the digits of a width is coded in that width. -/
theorem bcdCode_lt {w : Width} {t : Nat} (h : t < bcdModulus w) : (bcdCode t).toNat < 2 ^ w.bits := by
  rw [bcdCode_toNat]
  cases w <;> simp only [bcdModulus, Width.bits] at h ⊢ <;> omega

/-- A result that codes a number of a width: BCD, of the width, and it stands for the number. -/
theorem bcdCode_spec {w : Width} {t : Nat} (h : t < bcdModulus w) :
    (bcdCode t).toNat < 2 ^ w.bits ∧ bcdValid (bcdCode t) = true ∧ bcdVal (bcdCode t) = t :=
  ⟨bcdCode_lt h, bcdValid_bcdCode t, bcdVal_bcdCode (Nat.lt_of_lt_of_le h (bcdModulus_le w))⟩

/-- A decimal addition codes the sum modulo the modulus of the width. -/
theorem addDecimal_spec (w : Width) (a b : Word) (cin : Bool) :
    (addDecimal w a b cin).1.toNat < 2 ^ w.bits ∧ bcdValid (addDecimal w a b cin).1 = true ∧
      bcdVal (addDecimal w a b cin).1 = (bcdVal a + bcdVal b + cin.toNat) % bcdModulus w :=
  bcdCode_spec (Nat.mod_lt _ (bcdModulus_pos w))

/-- The exact decimal difference less the borrow (R161). -/
def decimalDifference (a b : Word) (cin : Bool) : Int := (bcdVal a : Int) - bcdVal b - (if cin then 0 else 1)

theorem subDecimal_eq (w : Width) (a b : Word) (cin : Bool) :
    subDecimal w a b cin =
      (bcdCode (decimalDifference a b cin % (bcdModulus w : Int)).toNat, decide (0 ≤ decimalDifference a b cin)) := by
  cases cin <;> rfl

/-- A decimal subtraction codes the non-negative residue of the difference. -/
theorem subDecimal_spec (w : Width) (a b : Word) (cin : Bool) :
    (subDecimal w a b cin).1.toNat < 2 ^ w.bits ∧ bcdValid (subDecimal w a b cin).1 = true ∧
      (bcdVal (subDecimal w a b cin).1 : Int) = decimalDifference a b cin % (bcdModulus w : Int) := by
  have hpos : (0 : Int) < bcdModulus w := Int.natCast_pos.mpr (bcdModulus_pos w)
  have hcast : ((decimalDifference a b cin % (bcdModulus w : Int)).toNat : Int) =
      decimalDifference a b cin % (bcdModulus w : Int) := Int.toNat_of_nonneg (Int.emod_nonneg _ hpos.ne')
  have hlt : (decimalDifference a b cin % (bcdModulus w : Int)).toNat < bcdModulus w := by
    have := Int.emod_lt_of_pos (decimalDifference a b cin) hpos
    omega
  obtain ⟨hwidth, hvalid, hval⟩ := bcdCode_spec hlt
  rw [subDecimal_eq]
  exact ⟨hwidth, hvalid, by rw [hval, hcast]⟩

/-! ### Comparison (R162) -/

theorem trunc_sub_toNat {w : Width} (reg : Word) {m : Word} (hm : m.toNat < 2 ^ w.bits) :
    (trunc w (reg - m)).toNat = (reg.toNat + 2 ^ w.bits - m.toNat) % 2 ^ w.bits := by
  rw [trunc_toNat, BitVec.toNat_sub]
  cases w <;> simp only [Width.bits] at hm ⊢ <;> omega

/-- The three flags a comparison writes. -/
theorem State.flags_compare {w : Width} (reg : Word) {m : Word} (hm : m.toNat < 2 ^ w.bits) (s : State) :
    (s.compare w reg m).flag .c = decide (m.toNat ≤ reg.toNat) ∧
      (s.compare w reg m).flag .z = decide (reg.toNat = m.toNat) ∧
      (s.compare w reg m).flag .n =
        decide (2 ^ (w.bits - 1) ≤ (reg.toNat + 2 ^ w.bits - m.toNat) % 2 ^ w.bits) := by
  refine ⟨by simp [State.compare, State.flag_setFlag], ?_, ?_⟩
  · simp [State.compare, State.flag_setFlag, BitVec.toNat_eq, BEq.beq]
  · rw [State.compare, State.flag_setFlag_same, msb_of_lt (trunc_toNat_lt w _), trunc_sub_toNat reg hm]

/-! ### The branches of ADC and SBC (R161, R163, R173) -/

section
variable {s : State} {m : Word}

theorem State.adc_of_binary (hd : s.flag .d = false) :
    s.adc m = s.setSum s.wA (addBinary s.wA (s.areg s.wA) m (s.flag .c)) := by
  rw [State.adc, hd]
  rfl

theorem State.sbc_of_binary (hd : s.flag .d = false) :
    s.sbc m = s.setSum s.wA (addBinary s.wA (s.areg s.wA) (trunc s.wA (~~~m)) (s.flag .c)) := by
  rw [State.sbc, hd]
  rfl

theorem State.decimalOp_of_valid (f : Width → Word → Word → Bool → Word × Bool)
    (ha : bcdValid (s.areg s.wA) = true) (hm : bcdValid m = true) :
    s.decimalOp f m = s.setDecimal s.wA (f s.wA (s.areg s.wA) m (s.flag .c)) :=
  if_pos (by rw [ha, hm]; rfl)

theorem State.decimalOp_of_invalid (f : Width → Word → Word → Bool → Word × Bool)
    (h : (bcdValid (s.areg s.wA) && bcdValid m) = false) : s.decimalOp f m = s.setInvalidDecimal s.wA :=
  if_neg (by rw [h]; decide)

theorem State.adc_of_decimal (hd : s.flag .d = true) (ha : bcdValid (s.areg s.wA) = true) (hm : bcdValid m = true) :
    s.adc m = s.setDecimal s.wA (addDecimal s.wA (s.areg s.wA) m (s.flag .c)) :=
  (if_pos hd).trans (State.decimalOp_of_valid addDecimal ha hm)

theorem State.sbc_of_decimal (hd : s.flag .d = true) (ha : bcdValid (s.areg s.wA) = true) (hm : bcdValid m = true) :
    s.sbc m = s.setDecimal s.wA (subDecimal s.wA (s.areg s.wA) m (s.flag .c)) :=
  (if_pos hd).trans (State.decimalOp_of_valid subDecimal ha hm)

theorem State.adc_of_invalid (hd : s.flag .d = true) (h : (bcdValid (s.areg s.wA) && bcdValid m) = false) :
    s.adc m = s.setInvalidDecimal s.wA :=
  (if_pos hd).trans (State.decimalOp_of_invalid addDecimal h)

theorem State.sbc_of_invalid (hd : s.flag .d = true) (h : (bcdValid (s.areg s.wA) && bcdValid m) = false) :
    s.sbc m = s.setInvalidDecimal s.wA :=
  (if_pos hd).trans (State.decimalOp_of_invalid subDecimal h)

end

/-! ### The end of an ADC or SBC -/

/-- An instruction has ended in `t` with a result in the accumulator: n and z describe it, c and v are as given, B (at
width 8) and the other flags are kept, and `PC` is past the instruction. -/
structure EndsWith (i : Instr) (s : State) (w : Width) (r : Word) (carry overflow : Bool) (t : State) : Prop where
  result : t.areg w = r
  carry : t.flag .c = carry
  overflow : t.flag .v = overflow
  nz : t.nzOf w r.toNat
  high : keepsB w s t
  flags : keepsFlags s t [.n, .v, .z, .c]
  goesOn : goesOn i s t

/-- The end in binary mode. -/
theorem endsWith_setSum (i : Instr) (s : State) {w : Width} {r : Word × Bool × Bool} (h : r.1.toNat < 2 ^ w.bits) :
    EndsWith i s w r.1 r.2.1 r.2.2 ((s.advance (encode i).length).setSum w r) where
  result := by rw [State.setSum, State.setNZ_areg, State.setFlag_areg, State.areg_setA, trunc_of_lt h]
  carry := by rw [State.setSum, State.flag_c_setNZ, State.flag_setFlag_same]
  overflow := by
    rw [State.setSum, State.keepsFlags_setNZ _ _ _ .v (by decide), State.flag_setFlag, if_neg (by decide)]
    exact State.flag_setFlag_same _ _ _
  nz := State.nzOf_setNZ h _
  high := State.keepsB_setA w r.1 _
  flags := by
    intro f hf
    simp only [List.mem_cons, List.not_mem_nil, or_false, not_or] at hf
    obtain ⟨hn, hv, hz, hc⟩ := hf
    rw [State.setSum, State.keepsFlags_setNZ _ _ _ f (by simp [hn, hz]), State.flag_setFlag, if_neg hc]
    exact (State.flag_setFlag _ _ _ _).trans (if_neg hv)
  goesOn := rfl

/-- A decimal end is a binary one whose v is the draw, and takes one draw. -/
theorem State.setDecimal_eq_setSum (w : Width) (r : Word × Bool) (s : State) :
    s.setDecimal w r = { s.setSum w (r.1, r.2, Config.decimalV s.draws) with draws := s.draws + 1 } := rfl

/-- `EndsWith` does not speak of the draw counter. -/
theorem EndsWith.setDraws {i : Instr} {s t : State} {w : Width} {r : Word} {c v : Bool} (h : EndsWith i s w r c v t)
    (k : Nat) : EndsWith i s w r c v { t with draws := k } :=
  ⟨h.result, h.carry, h.overflow, h.nz, h.high, h.flags, h.goesOn⟩

/-- The end in decimal mode on valid operands. -/
theorem endsWith_setDecimal (i : Instr) (s : State) {w : Width} {r : Word × Bool} (h : r.1.toNat < 2 ^ w.bits) :
    EndsWith i s w r.1 r.2 (Config.decimalV s.draws) ((s.advance (encode i).length).setDecimal w r) :=
  (endsWith_setSum i s (r := (r.1, r.2, Config.decimalV s.draws)) h).setDraws _

theorem State.areg_setInvalidDecimal (w : Width) (s : State) :
    (s.setInvalidDecimal w).areg w = trunc w (Config.decimalInvalidResult s.draws) :=
  (State.areg_setA w _ s).trans (trunc_trunc w _)

/-- The flags after a decimal operation on an operand that is not BCD. -/
theorem State.flag_setInvalidDecimal (w : Width) (f : Flag) (s : State) :
    (s.setInvalidDecimal w).flag f =
      if f ∈ [Flag.n, .v, .z, .c] then Config.decimalInvalidFlag f s.draws else s.flag f := by
  show State.flag (State.setFlag .c _ _) f = _
  simp only [State.flag_setFlag]
  cases f <;> rfl

end Sys2Proof.Machine
end

section
/-! SUPPORT. The claims on ADC, SBC, the comparisons, and the increments and decrements of the index registers (R160 to
R173). -/

namespace Sys2Proof.Machine

/-! ### ADC and SBC in binary mode (R160) -/

/-- Settles O15: the row ends with the binary sum of accumulator, operand and carry. -/
theorem adcBinary : Obligations.AdcBinary := by
  intro i o s hrow hd w a m c
  have hresult := addBinary_toNat w (s.areg w) (o.value s w) (s.flag .c)
  have hoverflow := addBinary_overflow (areg_toNat_lt s w) (o.value_lt s w) (s.flag .c)
  have hexec : exec i s = .next ((s.advance (encode i).length).setSum w
      (addBinary w (s.areg w) (o.value s w) (s.flag .c))) :=
    (exec_of_readRow hrow s).trans (congrArg _ (State.adc_of_binary hd))
  have hend := endsWith_setSum i s (addBinary_lt w (s.areg w) (o.value s w) (s.flag .c))
  have hnz := hend.nz
  rw [hresult] at hnz
  exact ⟨_, hexec, by rw [hend.result, hresult], hend.carry, hend.overflow.trans hoverflow, hnz, hend.high, hend.flags,
    hend.goesOn, rfl⟩

/-- Settles O16: the row ends with the binary sum of accumulator, complement and carry, which is the difference. -/
theorem sbcBinary : Obligations.SbcBinary := by
  intro i o s hrow hd w a m borrow r
  obtain ⟨hresult, hcarry, hoverflow⟩ := addBinary_complement (areg_toNat_lt s w) (o.value_lt s w) (s.flag .c)
  have hexec : exec i s = .next ((s.advance (encode i).length).setSum w
      (addBinary w (s.areg w) (trunc w (~~~o.value s w)) (s.flag .c))) :=
    (exec_of_readRow hrow s).trans (congrArg _ (State.sbc_of_binary hd))
  have hend := endsWith_setSum i s (addBinary_lt w (s.areg w) (trunc w (~~~o.value s w)) (s.flag .c))
  have hnz := hend.nz
  rw [hresult] at hnz
  exact ⟨_, hexec, by rw [hend.result, hresult]; rfl, hend.carry.trans hcarry, hend.overflow.trans hoverflow, hnz,
    hend.high, hend.flags, hend.goesOn, rfl⟩

/-! ### ADC and SBC in decimal mode (R161) -/

/-- Settles O17: the row ends with the coded decimal sum. -/
theorem adcDecimal : Obligations.AdcDecimal := by
  intro i o s hrow hd ha hm w sum
  obtain ⟨hlt, hvalid, hval⟩ := addDecimal_spec w (s.areg w) (o.value s w) (s.flag .c)
  have hexec : exec i s = .next ((s.advance (encode i).length).setDecimal w
      (addDecimal w (s.areg w) (o.value s w) (s.flag .c))) :=
    (exec_of_readRow hrow s).trans (congrArg _ (State.adc_of_decimal hd ha hm))
  have hend := endsWith_setDecimal i s hlt
  refine ⟨_, hexec, ?_, ?_, hend.carry, hend.overflow, ?_, hend.high, hend.flags, hend.goesOn, rfl⟩ <;>
    rw [hend.result]
  exacts [hvalid, hval, hend.nz]

/-- Settles O18: the row ends with the coded residue of the decimal difference. -/
theorem sbcDecimal : Obligations.SbcDecimal := by
  intro i o s hrow hd ha hm w difference
  obtain ⟨hlt, hvalid, hval⟩ := subDecimal_spec w (s.areg w) (o.value s w) (s.flag .c)
  have hcarry : (subDecimal w (s.areg w) (o.value s w) (s.flag .c)).2 = decide (0 ≤ difference) := by
    rw [subDecimal_eq]
    rfl
  have hexec : exec i s = .next ((s.advance (encode i).length).setDecimal w
      (subDecimal w (s.areg w) (o.value s w) (s.flag .c))) :=
    (exec_of_readRow hrow s).trans (congrArg _ (State.sbc_of_decimal hd ha hm))
  have hend := endsWith_setDecimal i s hlt
  refine ⟨_, hexec, ?_, ?_, hend.carry.trans hcarry, hend.overflow, ?_, hend.high, hend.flags, hend.goesOn, rfl⟩ <;>
    rw [hend.result]
  exacts [hvalid, hval, hend.nz]

/-- Settles O19: either operation ends in the draws. -/
theorem decimalInvalid : Obligations.DecimalInvalid := by
  intro i op o s hrow hop hd hinvalid w
  have hexec : exec i s = .next ((s.advance (encode i).length).setInvalidDecimal w) := by
    rw [exec_of_readRow hrow]
    rcases hop with rfl | rfl
    · exact congrArg _ (State.adc_of_invalid hd hinvalid)
    · exact congrArg _ (State.sbc_of_invalid hd hinvalid)
  refine ⟨_, hexec, State.areg_setInvalidDecimal w _, fun f hf => ?_, State.keepsB_setA w _ _, fun f hf => ?_, rfl,
    rfl⟩
  · exact (State.flag_setInvalidDecimal w f _).trans (if_pos hf)
  · exact (State.flag_setInvalidDecimal w f _).trans (if_neg hf)

/-! ### Comparisons (R162) -/

/-- What CMP, CPX and CPY do with their operand, in one form. -/
theorem ReadOp.apply_eq_compare {op : ReadOp} {reg : Word} {s : State}
    (h : (op, reg) ∈ [(ReadOp.cmp, s.areg s.wA), (.cpx, trunc s.wX s.x), (.cpy, trunc s.wX s.y)]) (b : Bool)
    (m : Word) (n : Nat) : op.apply b m (s.advance n) = (s.advance n).compare (op.width s) reg m := by
  simp only [List.mem_cons, List.not_mem_nil, or_false, Prod.mk.injEq] at h
  rcases h with ⟨rfl, rfl⟩ | ⟨rfl, rfl⟩ | ⟨rfl, rfl⟩ <;> rfl

/-- Settles O20: the three rows are one comparison, of the register at the operation's width. -/
theorem compare : Obligations.Compare := by
  intro i op o reg s hrow hreg w m
  have hexec : exec i s = .next ((s.advance (encode i).length).compare w reg (o.value s w)) := by
    rw [exec_of_readRow hrow, ReadOp.apply_eq_compare hreg]
  obtain ⟨hc, hz, hn⟩ := State.flags_compare reg (o.value_lt s w) (s.advance (encode i).length)
  exact ⟨_, hexec, hc, hz, hn, State.keepsFlags_compare w reg _ _, rfl, rfl⟩

/-! ### INX, INY, DEX and DEY (R168, R169, R171, R172) -/

/-- `SetNZ` looks at the low bits only. -/
theorem State.nzOf_setNZ_trunc (w : Width) (v : Word) (s : State) : (s.setNZ w v).nzOf w (trunc w v).toNat := by
  have hcut : s.setNZ w v = s.setNZ w (trunc w v) := by simp only [State.setNZ, msb_trunc, trunc_trunc]
  rw [hcut]
  exact State.nzOf_setNZ (trunc_toNat_lt w v) s

section
variable {i : Instr} {s : State} {v : Word} {r : Nat} (hlen : (encode i).length = 1)
  (hr : (trunc s.wX v).toNat = r)
include hlen hr

/-- A one-byte instruction that puts a value into X. -/
theorem exec_of_loadX (hexec : exec i s = s.loadX v) :
    ∃ t, exec i s = .next t ∧ t.x.toNat = r ∧ t.nzOf s.wX r ∧ keepsFlags s t [.n, .z] ∧ goesOn i s t ∧
      t = { s with x := t.x, p := t.p, pc := t.pc } := by
  subst hr
  refine ⟨_, hexec, rfl, State.nzOf_setNZ_trunc _ v _, keepsFlags_setNZ_of_p rfl _ v, ?_, rfl⟩
  rw [goesOn, hlen]
  rfl

/-- A one-byte instruction that puts a value into Y. -/
theorem exec_of_loadY (hexec : exec i s = s.loadY v) :
    ∃ t, exec i s = .next t ∧ t.y.toNat = r ∧ t.nzOf s.wX r ∧ keepsFlags s t [.n, .z] ∧ goesOn i s t ∧
      t = { s with y := t.y, p := t.p, pc := t.pc } := by
  subst hr
  refine ⟨_, hexec, rfl, State.nzOf_setNZ_trunc _ v _, keepsFlags_setNZ_of_p rfl _ v, ?_, rfl⟩
  rw [goesOn, hlen]
  rfl

end

/-- Settles O28: the four instructions put the register plus or minus one, cut to the width, back. -/
theorem incrementIndex : Obligations.IncrementIndex := by
  intro s
  constructor
  · intro i r hir
    simp only [List.mem_cons, List.not_mem_nil, or_false, Prod.mk.injEq] at hir
    obtain ⟨rfl, rfl⟩ | ⟨rfl, rfl⟩ := hir
    · exact exec_of_loadX rfl (trunc_add_one_toNat s.wX s.x) rfl
    · exact exec_of_loadX rfl (trunc_sub_one_toNat s.wX s.x) rfl
  · intro i r hir
    simp only [List.mem_cons, List.not_mem_nil, or_false, Prod.mk.injEq] at hir
    obtain ⟨rfl, rfl⟩ | ⟨rfl, rfl⟩ := hir
    · exact exec_of_loadY rfl (trunc_add_one_toNat s.wX s.y) rfl
    · exact exec_of_loadY rfl (trunc_sub_one_toNat s.wX s.y) rfl

end Sys2Proof.Machine
end

section
/-! SUPPORT. The claims on ORA, AND, EOR, LDA and BIT, and on the instructions that modify or test and set bits in
memory (R180 to R191, R270). -/

namespace Sys2Proof.Machine

/-! ### Bits, and values of a width -/

theorem getLsbD_eq_decide (v : Word) (k : Nat) : v.getLsbD k = decide (v.toNat / 2 ^ k % 2 = 1) := by
  rw [BitVec.getLsbD, Nat.testBit_eq_decide_div_mod_eq]

section
variable {w : Width} {a b : Word}

theorem or_toNat_lt (ha : a.toNat < 2 ^ w.bits) (hb : b.toNat < 2 ^ w.bits) : (a ||| b).toNat < 2 ^ w.bits := by
  rw [BitVec.toNat_or]
  exact Nat.or_lt_two_pow ha hb

theorem xor_toNat_lt (ha : a.toNat < 2 ^ w.bits) (hb : b.toNat < 2 ^ w.bits) : (a ^^^ b).toNat < 2 ^ w.bits := by
  rw [BitVec.toNat_xor]
  exact Nat.xor_lt_two_pow ha hb

/-- An AND is a value of the width as soon as one side is. -/
theorem and_toNat_lt (ha : a.toNat < 2 ^ w.bits) : (a &&& b).toNat < 2 ^ w.bits := by
  rw [BitVec.toNat_and]
  exact Nat.lt_of_le_of_lt Nat.and_le_left ha

end

/-! ### BIT (R183) -/

/-- BIT of a memory operand: n and v are bits of the operand alone. -/
theorem State.flags_bitMem {s : State} {m : Word} (hm : m.toNat < 2 ^ s.wA.bits) :
    (s.bitMem m).flag .z = decide (s.areg s.wA &&& m = 0) ∧
      (s.bitMem m).flag .n = decide (2 ^ (s.wA.bits - 1) ≤ m.toNat) ∧
      (s.bitMem m).flag .v = decide (m.toNat / 2 ^ (s.wA.bits - 2) % 2 = 1) := by
  simp only [State.bitMem, State.flag_setFlag, reduceCtorEq, if_true, if_false]
  exact ⟨beq_eq_decide _ _, msb_of_lt hm, getLsbD_eq_decide m _⟩

/-- Settles O21, by the two meanings BIT has: of an immediate and of a memory operand. -/
theorem bitTest : Obligations.BitTest := by
  intro i o s hrow w m
  let t := s.advance (encode i).length
  have hexec : exec i s = .next (ReadOp.bit.apply o.isImm m t) := exec_of_readRow hrow s
  have hflags : keepsFlags s (ReadOp.bit.apply o.isImm m t) (ReadOp.bit.flags o.isImm) :=
    ReadOp.keepsFlags_apply .bit o.isImm m t
  cases o with
  | imm v => exact ⟨_, hexec, (State.flag_setFlag_same _ _ t).trans (beq_eq_decide _ _), hflags, rfl, rfl⟩
  | mem f =>
    obtain ⟨hz, hn, hv⟩ := State.flags_bitMem (s := t) (Operand.value_lt (.mem f) s w)
    exact ⟨_, hexec, hz, ⟨hn, hv, hflags⟩, rfl, rfl⟩

/-! ### ORA, AND, EOR and LDA (R181, R184, R186, R270) -/

section
variable {op : ReadOp} {o : Operand} {r : Word} {s : State}
  (h : (op, r) ∈ [(ReadOp.ora, s.areg s.wA ||| o.value s s.wA), (.and, s.areg s.wA &&& o.value s s.wA),
    (.eor, s.areg s.wA ^^^ o.value s s.wA), (.lda, o.value s s.wA)])
include h

/-- What the four operations do with their operand, in one form: the result is put into the accumulator. -/
theorem ReadOp.apply_eq_setResultA (b : Bool) (n : Nat) :
    op.apply b (o.value s (op.width s)) (s.advance n) = (s.advance n).setResultA r := by
  simp only [List.mem_cons, List.not_mem_nil, or_false, Prod.mk.injEq] at h
  obtain ⟨rfl, rfl⟩ | ⟨rfl, rfl⟩ | ⟨rfl, rfl⟩ | ⟨rfl, rfl⟩ := h <;> rfl

/-- The results of the four operations are values of the width. -/
theorem ReadOp.logicResult_lt : r.toNat < 2 ^ s.wA.bits := by
  have ha := areg_toNat_lt s s.wA
  have hm := o.value_lt s s.wA
  simp only [List.mem_cons, List.not_mem_nil, or_false, Prod.mk.injEq] at h
  obtain ⟨-, rfl⟩ | ⟨-, rfl⟩ | ⟨-, rfl⟩ | ⟨-, rfl⟩ := h
  · exact or_toNat_lt ha hm
  · exact and_toNat_lt ha
  · exact xor_toNat_lt ha hm
  · exact hm

end

/-- Settles O22: the four rows put a value of the width into the accumulator and describe it by n and z. -/
theorem logicAndLoad : Obligations.LogicAndLoad := by
  intro i op o r s hrow hr
  let t := s.advance (encode i).length
  have hexec : exec i s = .next (t.setResultA r) := by
    rw [exec_of_readRow hrow, ReadOp.apply_eq_setResultA hr]
  have hlt : r.toNat < 2 ^ s.wA.bits := ReadOp.logicResult_lt hr
  have hacc : (t.setA s.wA r).areg s.wA = r := by rw [State.areg_setA, trunc_of_lt hlt]
  exact ⟨_, hexec, hacc, State.nzOf_setNZ hlt _, State.keepsB_setA s.wA r t, keepsFlags_setNZ_of_p rfl s.wA r, rfl,
    rfl⟩

/-! ### Writing a result back to memory (R180) -/

/-- A write-back changes memory only. -/
theorem State.writeBack_eq (l : Loc) (w : Width) (v : Word) (s : State) :
    s.writeBack l w v = { s with mem := (s.writeBack l w v).mem } := by cases w <;> rfl

theorem State.contents_setNZ (l : Loc) (u w : Width) (v : Word) (s : State) :
    (s.setNZ w v).contents l u = s.contents l u := by cases u <;> rfl

theorem State.contents_writeBack_of_lt {w : Width} {v : Word} (h : v.toNat < 2 ^ w.bits) (l : Loc) (s : State) :
    (s.writeBack l w v).contents l w = v := by rw [State.contents_writeBack, trunc_of_lt h]

/-- Settles O26: the operation's result is written back to the location of its operand, and n and z describe it. -/
theorem modifyMemory : Obligations.ModifyMemory := by
  intro i op f s hrow w v
  let t := s.advance (encode i).length
  have hv : v < 2 ^ t.wA.bits := s.readLoc_lt (s.loc f) w
  have hresult : (op.apply t (s.operand f w)).1.toNat = op.result w (s.flag .c) v := op.apply_toNat hv
  have hcarry : (op.apply t (s.operand f w)).2.flag .c = op.carry w (s.flag .c) v := op.flag_c_apply hv
  have hlt : (op.apply t (s.operand f w)).1.toNat < 2 ^ w.bits := by rw [hresult]; exact op.result_lt _ hv
  refine ⟨_, exec_of_modifyRow_mem hrow s, ?contents, ?carry, ?nz, ?bytes, ?flags, ?pc, ?rest⟩
  case contents => rw [State.contents_setNZ, State.contents_writeBack_of_lt hlt, hresult]
  case carry => rw [State.flag_c_setNZ, State.writeBack_flag]; exact hcarry
  case nz => rw [← hresult]; exact State.nzOf_setNZ hlt _
  case bytes =>
    have hmem : (op.apply t (s.operand f w)).2.mem = s.mem := by rw [op.apply_eq, State.advance_mem]
    exact keepsBytes_congr hmem (State.setNZ_mem _ _ _) (State.keepsBytes_writeBack _ _ _ _)
  case flags =>
    exact (keepsFlags_modify op _ w (State.advance_p _ s) (State.writeBack_p _ _ _ _)).mono op.flags_subset
  case pc => exact goesOn_advance (by simp [op.apply_pc])
  case rest => rw [State.writeBack_eq, op.apply_eq]; rfl

/-! ### TRB and TSB (R190, R191) -/

/-- Settles O27: z is set from the operand read before the new value is written back. -/
theorem testAndSetBits : Obligations.TestAndSetBits := by
  intro i set f s hrow w a v
  let t := s.advance (encode i).length
  have hv : v.toNat < 2 ^ w.bits := s.readLoc_lt (s.loc f) w
  have hlt : (if set then v ||| a else v &&& ~~~a).toNat < 2 ^ w.bits := by
    cases set with
    | true => exact or_toNat_lt hv (areg_toNat_lt s w)
    | false => exact and_toNat_lt hv
  refine ⟨_, exec_of_testRow hrow s, ?z, State.contents_writeBack_of_lt hlt _ _, ?bytes, ?flags, ?pc, ?rest⟩
  case z => rw [State.writeBack_flag, State.flag_setFlag_same, beq_eq_decide]
  case bytes => exact State.keepsBytes_writeBack _ _ _ (t.setFlag .z (a &&& v == 0))
  case flags =>
    exact (keepsFlags_setFlag_of_p (State.advance_p _ s) .z _).trans (keepsFlags_of_p (State.writeBack_p _ _ _ _) _)
  case pc => exact goesOn_advance (State.writeBack_pc _ _ _ _)
  case rest => rw [State.writeBack_eq]; rfl

end Sys2Proof.Machine
end

section
/-! SUPPORT. The claims on branches and jumps (R200 to R212): the targets as numbers, and `PC` and `PBR` set to them. -/

namespace Sys2Proof.Machine

/-! ### Branches (R200) -/

/-- A sign-extended displacement added to an offset, modulo 2^16. -/
theorem add_signExtend_toNat (v : Word) (rel : Byte) :
    ((v + rel.signExtend 16).toNat : Int) = ((v.toNat : Int) + rel.toInt) % 65536 := by
  rw [BitVec.toNat_add, BitVec.signExtend, BitVec.toNat_ofInt]
  omega

/-- The offset of the instruction after a branch. -/
theorem add_two_toNat (v : Word) : ((v + 2).toNat : Int) = ((v.toNat : Int) + 2) % 65536 := by
  rw [BitVec.toNat_add, show (2 : Word).toNat = 2 from rfl]
  omega

/-- `Branch(cond)`: `PC` past the branch, plus the displacement if it is taken. -/
theorem State.branch_spec (taken : Bool) (rel : Byte) (s : State) :
    ∃ t, s.branch taken rel = .next t ∧
      (t.pc.toNat : Int) = ((s.pc.toNat : Int) + 2 + (if taken then rel.toInt else 0)) % 65536 ∧
      t = { s with pc := t.pc } := by
  cases taken with
  | true =>
    refine ⟨_, rfl, ?_, rfl⟩
    show ((s.pc + 2 + rel.signExtend 16).toNat : Int) = ((s.pc.toNat : Int) + 2 + rel.toInt) % 65536
    rw [add_signExtend_toNat, add_two_toNat, Int.emod_add_emod]
  | false =>
    refine ⟨_, rfl, ?_, rfl⟩
    show ((s.pc + 2).toNat : Int) = ((s.pc.toNat : Int) + 2 + 0) % 65536
    rw [add_zero, add_two_toNat]

/-- Settles O37: each row is a branch on its flag's value. -/
theorem conditionalBranches : Obligations.ConditionalBranches := by
  intro i f b rel s hrow
  rw [exec_of_branchRow hrow]
  simpa only [beq_iff_eq] using State.branch_spec (s.flag f == b) rel s

/-- Settles O38: BRA is the branch that is always taken, BRL adds a word. -/
theorem branchAlways : Obligations.BranchAlways := by
  intro s
  refine ⟨fun rel => State.branch_spec true rel s, fun rel => ⟨_, rfl, ?_, rfl⟩⟩
  show (s.pc + 3 + rel).toNat = (s.pc.toNat + 3 + rel.toNat) % 65536
  rw [BitVec.toNat_add, BitVec.toNat_add, Nat.mod_add_mod]
  rfl

/-! ### Targets (R63, R211, R212) -/

/-- The bank and the offset of an address are its high byte and its low word. -/
theorem addr_bank_offset_toNat (a : Addr) :
    ((a >>> 16).setWidth 8 : Byte).toNat * 65536 + (a.setWidth 16 : Word).toNat = a.toNat := by
  have := a.isLt
  simp only [BitVec.toNat_setWidth, BitVec.toNat_ushiftRight, Nat.shiftRight_eq_div_pow]
  omega

theorem addr24_bank (l h b : Byte) : (addr24 l h b >>> 16).setWidth 8 = b := by
  have := l.isLt; have := h.isLt; have := b.isLt
  apply BitVec.eq_of_toNat_eq
  simp only [BitVec.toNat_setWidth, BitVec.toNat_ushiftRight, Nat.shiftRight_eq_div_pow, addr24_toNat]
  omega

theorem addr24_offset (l h b : Byte) : (addr24 l h b).setWidth 16 = word16 l h := by
  have := l.isLt; have := h.isLt
  apply BitVec.eq_of_toNat_eq
  simp only [BitVec.toNat_setWidth, addr24_toNat, word16_toNat]
  omega

/-- A pointer in the program bank: its second byte wraps inside the bank (R63). -/
theorem readPB_toNat (s : State) (n : Nat) :
    (s.readPB (.ofNat 16 n)).toNat =
      s.byteNum .pointer (s.pbr.toNat * 65536 + n % 65536) +
        256 * s.byteNum .pointer (s.pbr.toNat * 65536 + (n + 1) % 65536) := by
  rw [State.readPB, ofNat16_add_one, bankAddr_eq_ofNat, bankAddr_eq_ofNat, State.read16, word16_toNat,
    BitVec.toNat_ofNat, BitVec.toNat_ofNat]
  rfl

/-- A pointer in bank 0 at an operand (R63, R142). -/
theorem readB0_pointer_word_toNat (s : State) (v : Word) :
    (s.readB0 .pointer v).toNat =
      s.byteNum .pointer v.toNat + 256 * s.byteNum .pointer ((v.toNat + 1) % 65536) := by
  have h := readB0_pointer_toNat s v.toNat
  rwa [BitVec.ofNat_toNat, BitVec.setWidth_eq, State.stackWordNum, Nat.mod_eq_of_lt v.isLt] at h

/-- The offset of a three-byte pointer is the two-byte pointer there. -/
theorem readB0Long_offset (s : State) (v : Word) : (s.readB0Long v).setWidth 16 = s.readB0 .pointer v :=
  addr24_offset _ _ _

/-- The bank of a three-byte pointer is its third byte (R144). -/
theorem readB0Long_bank_toNat (s : State) (v : Word) :
    ((s.readB0Long v >>> 16).setWidth 8 : Byte).toNat = s.byteNum .pointer ((v.toNat + 2) % 65536) := by
  have hthird : v + 2 = .ofNat 16 (v.toNat + 2) := by
    rw [← ofNat16_add_two, BitVec.ofNat_toNat, BitVec.setWidth_eq]
  rw [State.readB0Long, addr24_bank, hthird, bankAddr_zero_ofNat]
  rfl

/-- Settles O39, from each form's target as a number. -/
theorem jumps : Obligations.Jumps := by
  intro abs long s m
  refine ⟨⟨_, rfl, rfl, rfl⟩, ⟨_, rfl, readB0_pointer_word_toNat s abs, rfl⟩, ⟨_, rfl, ?absX, rfl⟩,
    ⟨_, rfl, addr_bank_offset_toNat long, rfl⟩, ⟨_, rfl, ?offset, readB0Long_bank_toNat s abs, rfl⟩⟩
  case absX =>
    have hptr : abs + s.x = .ofNat 16 (abs.toNat + s.x.toNat) := by
      rw [BitVec.ofNat_add, BitVec.ofNat_toNat, BitVec.ofNat_toNat, BitVec.setWidth_eq, BitVec.setWidth_eq]
    show (s.readPB (abs + s.x)).toNat = _
    rw [hptr]
    exact readPB_toNat s _
  case offset =>
    show ((s.readB0Long abs).setWidth 16).toNat = _
    rw [readB0Long_offset]
    exact readB0_pointer_word_toNat s abs

end Sys2Proof.Machine
end

section
/-! SUPPORT. The claims on calls and returns (R213 to R216, R218): what each leaves in every field, and a return whose
pulls read what a call pushed. -/

namespace Sys2Proof.Machine

/-! ### Calls that count `S` as 16 bits (R70, R213, R214) -/

/-- JSL and JSR (abs,X): `PC` past the `n` bytes of the call, the pushes, then the jump and `Normalize`. -/
def State.callN (s : State) (n : Nat) (bytes : List Byte) (bank : Byte) (target : Word) : State :=
  State.normalize { pushNList bytes (s.advance n) with pbr := bank, pc := target }

theorem exec_jsl (long : Addr) (s : State) :
    exec (.jsl long) s = .next (s.callN 4 [s.pbr, hiByte (s.pc + 3), loByte (s.pc + 3)]
      ((long >>> 16).setWidth 8) (long.setWidth 16)) := rfl

/-- The pointer of JSR (abs,X) is read after the pushes, which may have written it (R214). -/
theorem exec_jsrAbsXInd (abs : Word) (s : State) :
    exec (.jsrAbsXInd abs) s = .next (s.callN 3 [hiByte (s.pc + 2), loByte (s.pc + 2)] s.pbr
      (((s.advance 3).pushN16 (s.pc + 2)).readPB (abs + s.x))) := rfl

section
variable (s : State) (n : Nat) (bytes : List Byte) (bank : Byte) (target : Word)

theorem State.callN_s : (s.callN n bytes bank target).s = normalS s.e (s.s - BitVec.ofNat 16 bytes.length) := by
  have he : (pushNList bytes (s.advance n)).e = s.e := by rw [pushNList_eq]; rfl
  have hs : (pushNList bytes (s.advance n)).s = s.s - BitVec.ofNat 16 bytes.length := pushNList_s _ _
  rw [State.callN, State.normalize_s, he, hs]
  rfl

theorem State.callN_pushedN (h : bytes.length ≤ 256) : pushedN s (s.callN n bytes bank target) bytes :=
  pushNList_pushed bytes (s.advance n) h

theorem State.callN_keepsBytes : keepsBytes s (s.callN n bytes bank target) (s.pushNAddrs bytes.length) :=
  pushNList_keepsBytes bytes (s.advance n)

/-- Where the mode invariants hold, `Normalize` leaves to a call only its pushes, `S` and the jump. -/
theorem State.callN_eq (hs : s.modeOk) :
    s.callN n bytes bank target =
      { s with
        mem := (s.callN n bytes bank target).mem
        s := (s.callN n bytes bank target).s
        pbr := bank
        pc := target } := by
  have hchange := State.normalize_of_change hs { pushNList bytes (s.advance n) with pbr := bank, pc := target }
    (by rw [pushNList_eq]; rfl)
  rw [State.callN, hchange, pushNList_eq]
  rfl

end

/-- Settles O41: JSL is a call that counts `S` as 16 bits, with three pushes. -/
theorem callLong : Obligations.CallLong := by
  intro long s hs
  exact ⟨_, exec_jsl long s, s.callN_pushedN _ _ _ _ (by simp), s.callN_keepsBytes _ _ _ _, s.callN_s _ _ _ _,
    addr_bank_offset_toNat long, s.callN_eq _ _ _ _ hs⟩

/-- Settles O40: JSR abs is two old-style pushes and a jump, JSR (abs,X) a call that counts `S` as 16 bits. -/
theorem callsInsideBank : Obligations.CallsInsideBank := by
  intro abs s ret
  refine ⟨⟨_, rfl, pushList_pushed [hiByte ret, loByte ret] (s.advance 3) (by simp),
    pushList_keepsBytes [hiByte ret, loByte ret] (s.advance 3), rfl, rfl, rfl⟩, fun hs => ?_⟩
  exact ⟨_, exec_jsrAbsXInd abs s, s.callN_pushedN _ _ _ _ (by simp), s.callN_keepsBytes _ _ _ _, s.callN_s _ _ _ _,
    rfl, s.callN_eq _ _ _ _ hs⟩

/-! ### Returns (R215, R216) -/

theorem exec_rts (s : State) :
    exec .rts s = .next { s with
      s := stackAbove s.e s.s 2, pc := s.read16 .pull (s.pullAddr 1) (s.pullAddr 2) + 1 } := rfl

/-- What `PullN24` yields: the offset, the bank, and `S` three higher. -/
theorem State.pullN24_spec (s : State) :
    s.pullN24 = (addr24 (s.readByte .pull (bankAddr 0 (s.s + 1))) (s.readByte .pull (bankAddr 0 (s.s + 2)))
      (s.readByte .pull (bankAddr 0 (s.s + 3))), { s with s := s.s + 3 }) := by
  have h2 : s.s + 1 + 1 = s.s + 2 := BitVec.add_assoc _ _ _
  have h3 : s.s + 2 + 1 = s.s + 3 := BitVec.add_assoc _ _ _
  rw [← h3, ← h2]
  rfl

theorem exec_rtl {s : State} (hs : s.modeOk) :
    exec .rtl s = .next { s with
      s := normalS s.e (s.s + 3), pbr := s.readByte .pull (bankAddr 0 (s.s + 3)),
      pc := s.read16 .pull (bankAddr 0 (s.s + 1)) (bankAddr 0 (s.s + 2)) + 1 } := by
  show execRtl s = _
  simp only [execRtl, State.pullN24_spec, addr24_offset, addr24_bank]
  exact congrArg Host.Outcome.next (State.normalize_of_change hs _ rfl)

/-- Settles O42, from what each return does to every field. -/
theorem returns : Obligations.Returns :=
  fun s => ⟨⟨_, exec_rts s, rfl, rfl, rfl⟩, fun hs => ⟨_, exec_rtl hs, rfl, rfl, rfl, rfl⟩⟩

/-! ### A return after a call (R218) -/

/-- Pulls walk back up where pushes walked down. -/
theorem stackAbove_stackBelow (e : Bool) (sp : Word) {n k : Nat} (h : k ≤ n) :
    stackAbove e (stackBelow e sp n) k = stackBelow e sp (n - k) := by
  induction k with
  | zero => rfl
  | succ k ih =>
    have hn : n - k = n - (k + 1) + 1 := by omega
    rw [stackAbove, ih (by omega), hn, stackBelow, stackUp_stackDown]

/-- The pulls after `n` pushes read at the addresses pushed to, the last first. -/
theorem pullAddr_eq_pushAddr {s h : State} {n k : Nat} (he : h.e = s.e) (hs : h.s = stackBelow s.e s.s n)
    (hk : k ≤ n) : h.pullAddr k = s.pushAddr (n - k) := by
  rw [State.pullAddr, he, hs, stackAbove_stackBelow _ _ hk, State.pushAddr]

/-- RTS after JSR abs. -/
theorem rts_after_jsrAbs {s t h : State} {abs : Word} (he : h.e = s.e) (hs : h.s = t.s)
    (hcall : exec (.jsrAbs abs) s = .next t) (hread : ∀ a ∈ s.pushAddrs 2, h.readByte .pull a = t.byteAt a) :
    ∃ u, exec .rts h = .next u ∧ u.pc = s.pc + 3 ∧ u.s = s.s ∧ u = { h with s := u.s, pc := u.pc } := by
  obtain ⟨t', hcall', hpushed, -, hts, -⟩ := (callsInsideBank abs s).1
  obtain rfl : t = t' := Host.Outcome.next.inj (hcall.symm.trans hcall')
  rw [hts] at hs
  have hhi : h.readByte .pull (h.pullAddr 2) = hiByte (s.pc + 2) := by
    rw [pullAddr_eq_pushAddr he hs le_rfl, hread _ (mem_pushAddrs.2 ⟨0, by decide, rfl⟩)]
    exact hpushed 0 (by simp)
  have hlo : h.readByte .pull (h.pullAddr 1) = loByte (s.pc + 2) := by
    rw [pullAddr_eq_pushAddr he hs (by decide), hread _ (mem_pushAddrs.2 ⟨1, by decide, rfl⟩)]
    exact hpushed 1 (by simp)
  refine ⟨_, exec_rts h, ?_, ?_, rfl⟩
  · rw [State.read16, hlo, hhi, word16_lo_hi]
    exact BitVec.add_assoc _ _ _
  · show stackAbove h.e h.s 2 = s.s
    rw [he, hs, stackAbove_stackBelow _ _ le_rfl]
    rfl

/-- Where `SL` is at least the number of pushes they stay inside page 1, and forcing `SH` changes nothing (R42, R70). -/
theorem normalS_sub {e : Bool} {sp : Word} {k : Nat} (h : e = false ∨ hiByte sp = 0x01 ∧ k ≤ (loByte sp).toNat) :
    normalS e (sp - BitVec.ofNat 16 k) = sp - BitVec.ofNat 16 k := by
  obtain rfl | ⟨hhi, hlo⟩ := h
  · rfl
  have hbase : sp.toNat / 256 = 1 := by rw [← hiByte_toNat, hhi]; rfl
  rw [loByte_toNat] at hlo
  have hpage : hiByte (sp - BitVec.ofNat 16 k) = 0x01 := by
    apply BitVec.eq_of_toNat_eq
    rw [hiByte_toNat, BitVec.toNat_sub, BitVec.toNat_ofNat, show (0x01 : Byte).toNat = 1 from rfl]
    omega
  rw [normalS, ← hpage, word16_lo_hi, ite_self]

/-- RTL after a JSL whose frame does not leave page 1 in emulation mode. -/
theorem rtl_after_jsl {s t h : State} {long : Addr} (he : h.e = s.e) (hs : h.s = t.s)
    (hpage : s.e = false ∨ hiByte s.s = 0x01 ∧ 3 ≤ (loByte s.s).toNat) (hmode : h.modeOk)
    (hcall : exec (.jsl long) s = .next t) (hread : ∀ a ∈ s.pushNAddrs 3, h.readByte .pull a = t.byteAt a) :
    ∃ u, exec .rtl h = .next u ∧ u.pc = s.pc + 4 ∧ u.pbr = s.pbr ∧ u.s = s.s ∧
      u = { h with s := u.s, pbr := u.pbr, pc := u.pc } := by
  rw [exec_jsl] at hcall
  obtain rfl := Host.Outcome.next.inj hcall
  have hpushed := s.callN_pushedN 4 [s.pbr, hiByte (s.pc + 3), loByte (s.pc + 3)] ((long >>> 16).setWidth 8)
    (long.setWidth 16) (by simp)
  have hbelow : h.s = s.s - 3 := hs.trans ((s.callN_s _ _ _ _).trans (normalS_sub hpage))
  have hpull : ∀ {k : Nat} {p : Word} (hk : k < 3), h.s + p = s.s - BitVec.ofNat 16 k →
      h.readByte .pull (bankAddr 0 (h.s + p)) = [s.pbr, hiByte (s.pc + 3), loByte (s.pc + 3)][k] := by
    intro k p hk hp
    rw [hp, hread _ (mem_pushNAddrs.2 ⟨k, hk, rfl⟩), hpushed k hk]
  have hlo := hpull (k := 2) (p := 1) (by decide) (by rw [hbelow]; bv_omega)
  have hhi := hpull (k := 1) (p := 2) (by decide) (by rw [hbelow]; bv_omega)
  have hbank := hpull (k := 0) (p := 3) (by decide) (by rw [hbelow]; bv_omega)
  refine ⟨_, exec_rtl hmode, ?pc, hbank, ?stack, rfl⟩
  case pc =>
    rw [State.read16, hlo, hhi]
    exact (congrArg (· + 1) (word16_lo_hi _)).trans (BitVec.add_assoc _ _ _)
  case stack =>
    show normalS h.e (h.s + 3) = s.s
    have h0 := normalS_sub (k := 0) (hpage.imp_right fun ⟨hhi, _⟩ => ⟨hhi, Nat.zero_le _⟩)
    rwa [he, hbelow, BitVec.sub_add_cancel, ← BitVec.sub_zero s.s]

/-- Settles O43, by the two calls. -/
theorem callThenReturn : Obligations.CallThenReturn :=
  fun _ _ _ he hs => ⟨fun _ => rts_after_jsrAbs he hs, fun _ => rtl_after_jsl he hs⟩

end Sys2Proof.Machine
end

section
/-! SUPPORT. The claims on the system instructions (R230 to R236): a software interrupt is the entry of an event, RTI
its return; the boundary of a step while the processor is stopped or waiting (R349, R353). -/

namespace Sys2Proof.Machine

/-! ### Entering an event (R348) -/

theorem pushed_interrupt (k : Event) (s : State) :
    pushed s (s.interrupt k) (frame s s.pc (pushedStatus s.e s.p k)) := by
  have hlen : (frame s s.pc (pushedStatus s.e s.p k)).length ≤ 256 := by
    rw [frame_length, frameBytes]
    split <;> decide
  have hpushed := pushList_pushed _ s hlen
  rw [← State.pushFrame_eq] at hpushed
  exact hpushed

/-- What follows the pushes does not change what a read yields, so the vector reads in the state entered as it read
when `PC` was taken from it. -/
theorem State.interrupt_pc_eq_readB0 (k : Event) (s : State) :
    (s.interrupt k).pc = (s.interrupt k).readB0 .vector (vector s.e k) := by
  have hread := State.readByte_congr (s := ((s.pushFrame k).setFlag .i true).setFlag .d false) (t := s.interrupt k)
    rfl rfl rfl rfl .vector
  exact (congrArg₂ word16 (hread _) (hread _)).symm

theorem State.interrupt_flag_i (k : Event) (s : State) : (s.interrupt k).flag .i = true := by
  show (((s.pushFrame k).setFlag .i true).setFlag .d false).flag .i = true
  rw [State.flag_setFlag, if_neg (by decide), State.flag_setFlag_same]

theorem State.interrupt_flag_d (k : Event) (s : State) : (s.interrupt k).flag .d = false :=
  State.flag_setFlag_same .d false ((s.pushFrame k).setFlag .i true)

/-- `Interrupt(kind)` enters its event with `PC` as the return offset. An NMI also clears its latch, which `entered`
keeps: it is entered from a state with the latch clear. -/
theorem entered_interrupt {k : Event} {s : State} (hlatch : (s.nmiPending && k != .nmi) = s.nmiPending) :
    entered s (s.interrupt k) s.pc (pushedStatus s.e s.p k) (vector s.e k) := by
  have hs : (s.interrupt k).s = stackBelow s.e s.s (frameBytes s.e) := by rw [State.interrupt_spec]
  have hflags : keepsFlags s (s.interrupt k) [.i, .d] := (keepsFlags_interrupt_of_p rfl k).mono (by decide)
  refine ⟨pushed_interrupt k s, keepsBytes_interrupt k s, hs, s.interrupt_flag_i k, s.interrupt_flag_d k, hflags, rfl,
    s.interrupt_pc_eq_readB0 k, ?_⟩
  rw [State.interrupt_spec, hlatch]

/-- Settles O44: `PC` is moved past the signature byte, then the event is entered. -/
theorem softwareInterrupts : Obligations.SoftwareInterrupts := by
  intro i sig vec s hrow
  simp only [List.mem_cons, List.not_mem_nil, or_false, Prod.mk.injEq] at hrow
  obtain ⟨rfl, rfl⟩ | ⟨rfl, rfl⟩ := hrow
  · exact ⟨_, rfl, entered_interrupt (k := .brk) (s := s.advance 2) (Bool.and_true _)⟩
  · exact ⟨_, rfl, entered_interrupt (k := .cop) (s := s.advance 2) (Bool.and_true _)⟩

/-! ### The return from interrupt (R233) -/

theorem exec_rti {s : State} (hs : s.modeOk) :
    exec .rti s = .next { s.pulledStatus with
      s := stackAbove s.e s.s (frameBytes s.e)
      pc := s.read16 .pull (s.pullAddr 2) (s.pullAddr 3)
      pbr := if s.e then s.pbr else s.readByte .pull (s.pullAddr 4) } :=
  congrArg Host.Outcome.next (State.returnFromInterrupt_spec (s := s.advance 1) hs)

/-- Settles O46: the flags, X and Y are those that `Normalize` leaves after the first pull. -/
theorem returnFromInterrupt : Obligations.ReturnFromInterrupt := by
  intro s hs
  refine ⟨_, exec_rti hs, fun f => ?flags, ?x, ?y, rfl, rfl, rfl, rfl⟩
  case flags => exact State.flag_normalize _ f
  case x => exact State.normalize_x _
  case y => exact State.normalize_y _

/-! ### NOP, WDM, STP and WAI (R232, R234 to R236) -/

/-- Settles O48: each of the four is `PC` moved on, and at most one latch set. -/
theorem nopReservedStopWait : Obligations.NopReservedStopWait :=
  fun _ _ => ⟨rfl, rfl, rfl, rfl⟩

/-! ### Stopped and waiting (R234, R235, R349, R353) -/

theorem State.latched_of_no_edge {s : State} (hn : s.input.nmi = false) : s.latched = s.nextInput := by
  rw [State.latched, State.latchNmi, hn, Bool.or_false]

theorem State.boundary_of_running {s : State} (hr : s.input.reset = false) (hs : s.stopped = false) :
    s.boundary = s.latched.sample s.input.irq := by
  simp only [State.boundary, hr, hs, Bool.false_eq_true, if_false, State.latched]

/-- A wait goes on while there is no NMI and no IRQ. -/
theorem State.sample_of_waiting {s : State} (hw : s.waiting = true) (hn : s.nmiPending = false) :
    s.sample false = .done s := by
  simp only [State.sample, hw, hn, Bool.or_self, Bool.not_false, Bool.and_self, if_true]

/-- An NMI or an IRQ ends a wait, an IRQ even where it is masked. -/
theorem State.sample_eq_sample_wake {irq : Bool} {s : State} (h : (s.nmiPending || irq) = true) :
    s.sample irq = s.wake.sample irq := by
  simp only [State.sample, State.wake_nmiPending, h, Bool.not_true, Bool.and_false]
  rfl

theorem step_waiting {s : State} (hr : s.input.reset = false) (hs : s.stopped = false) (hw : s.waiting = true)
    (hp : s.nmiPending = false) (hn : s.input.nmi = false) (hq : s.input.irq = false) :
    step s = .next s.nextInput := by
  have hb : s.boundary = .done s.nextInput := by
    rw [State.boundary_of_running hr hs, State.latched_of_no_edge hn, hq]
    exact State.sample_of_waiting hw hp
  rw [step, hb]

theorem step_eq_step_wake {s : State} (hr : s.input.reset = false) (hs : s.stopped = false)
    (h : (s.latched.nmiPending || s.input.irq) = true) : step s = step s.wake := by
  have hb : s.boundary = s.wake.boundary := by
    rw [State.boundary_of_running hr hs, State.boundary_of_running (s := s.wake) hr hs]
    exact State.sample_eq_sample_wake h
  rw [step, step, hb]

/-- Settles O55, from the boundary of a stopped, of an idly waiting and of a woken processor. -/
theorem stoppedAndWaiting : Obligations.StoppedAndWaiting := by
  intro s hr
  refine ⟨step_stopped hr, fun hs hw hp hn => ⟨step_waiting hr hs hw hp hn, fun hq _ => step_eq_step_wake hr hs ?_⟩⟩
  rw [hq, Bool.or_true]

end Sys2Proof.Machine
end

section
/-! SUPPORT. The claims on the status-register and mode instructions (R250 to R259): the flags that a write of the whole
of `P` leaves, and the two outcomes of XCE by the carry it finds. -/

namespace Sys2Proof.Machine

/-! ### One flag (R250 to R253, R255 to R257) -/

/-- Settles O49, by the law of the one-flag instructions. -/
theorem flagInstructions : Obligations.FlagInstructions := by
  intro i f b s hrow
  refine ⟨_, exec_of_flagRow hrow s, State.flag_setFlag_same f b _, ?keeps, rfl, rfl⟩
  case keeps => exact keepsFlags_setFlag_of_p (State.advance_p _ s) f b

/-! ### REP and SEP (R254, R258) -/

/-- A flag's place in `P` is the bit that `flagBit` says (R30). -/
theorem flagBit_of_mem_layout {f : Flag} {b : Nat}
    (h : (f, b) ∈ [(Flag.n, 7), (.v, 6), (.m, 5), (.x, 4), (.d, 3), (.i, 2), (.z, 1), (.c, 0)]) : flagBit f = b := by
  cases f <;> simpa [flagBit, eq_comm] using h

/-- The flags after a write of the whole of `P`. -/
theorem State.flag_setP (v : Byte) (s : State) (f : Flag) :
    (s.setP v).flag f = (v.getLsbD (flagBit f) || (s.e && (f == .m || f == .x))) :=
  State.flag_normalize { s with p := v } f

/-- The flags after the bits of a mask are cleared. -/
theorem State.flag_setP_and_not (imm : Byte) (s : State) (f : Flag) :
    (s.setP (s.p &&& ~~~imm)).flag f =
      ((s.flag f && !imm.getLsbD (flagBit f)) || (s.e && (f == .m || f == .x))) := by
  rw [State.flag_setP, BitVec.getLsbD_and, BitVec.getLsbD_not, decide_eq_true (flagBit_lt f), Bool.true_and]
  rfl

/-- In emulation mode the mode invariants hold m and x at 1 already. -/
theorem State.flag_or_forced {s : State} (hs : s.modeOk) (f : Flag) :
    (s.flag f || (s.e && (f == .m || f == .x))) = s.flag f := by
  rw [← State.flag_normalize, State.normalize_of_modeOk hs]

/-- The flags after the bits of a mask are set. -/
theorem State.flag_setP_or {s : State} (hs : s.modeOk) (imm : Byte) (f : Flag) :
    (s.setP (s.p ||| imm)).flag f = (s.flag f || imm.getLsbD (flagBit f)) := by
  rw [State.flag_setP, BitVec.getLsbD_or, Bool.or_right_comm]
  exact congrArg (· || imm.getLsbD (flagBit f)) (State.flag_or_forced hs f)

/-- A write of `P` changes nothing else but X and Y: `SH`, which `Normalize` forces in emulation mode, has its value
already. -/
theorem State.setP_eq {s : State} (hs : s.modeOk) (v : Byte) :
    s.setP v = { s with x := (s.setP v).x, y := (s.setP v).y, p := (s.setP v).p } := by
  have hnormal : s.normalize.s = s.s := congrArg State.s (State.normalize_of_modeOk hs)
  have hstack : (s.setP v).s = s.s := hnormal
  calc s.setP v = { s with x := (s.setP v).x, y := (s.setP v).y, s := (s.setP v).s, p := (s.setP v).p } := rfl
    _ = { s with x := (s.setP v).x, y := (s.setP v).y, p := (s.setP v).p } := by rw [hstack]

/-- Settles O50: the flags by the mask, X and Y as `Normalize` leaves them at the new x. -/
theorem resetAndSetStatusBits : Obligations.ResetAndSetStatusBits := by
  intro imm s hs layout
  have hframe := State.setP_eq (s := s.advance 2) hs
  refine ⟨⟨_, rfl, fun f b hfb => ?rep, State.normalize_x _, State.normalize_y _, rfl, hframe _⟩,
    ⟨_, rfl, fun f b hfb => ?sep, State.normalize_x _, State.normalize_y _, rfl, hframe _⟩⟩
  case rep =>
    obtain rfl := flagBit_of_mem_layout hfb
    exact ⟨rfl, rfl, State.flag_setP_and_not imm (s.advance 2) f⟩
  case sep =>
    obtain rfl := flagBit_of_mem_layout hfb
    exact ⟨rfl, rfl, State.flag_setP_or (s := s.advance 2) hs imm f⟩

/-! ### XCE (R259) -/

/-- The old `E` goes into the carry. -/
theorem State.flag_c_exchangeCE (s : State) : s.exchangeCE.flag .c = s.e := by
  rw [State.exchangeCE, State.flag_normalize, show (Flag.c == .m || Flag.c == .x) = false from rfl, Bool.and_false,
    Bool.or_false]
  exact State.flag_setFlag_same .c s.e s

/-- With the carry set, emulation mode is entered: `Normalize` forces m, x and `SH` and clears `XH` and `YH`. -/
theorem State.exchangeCE_of_carry {s : State} (hc : s.flag .c = true) :
    s.exchangeCE.flag .m = true ∧ s.exchangeCE.flag .x = true ∧
      s.exchangeCE.s.toNat = 0x0100 + s.s.toNat % 256 ∧ s.exchangeCE.x.toNat = s.x.toNat % 256 ∧
      s.exchangeCE.y.toNat = s.y.toNat % 256 := by
  have he : s.exchangeCE.e = true := hc
  obtain ⟨hm, hx, -⟩ := (State.modeOk_normalize { s.setFlag .c s.e with e := s.flag .c }).1 he
  have hw : s.exchangeCE.wX = .w8 := if_pos hx
  have hS : s.exchangeCE.s = word16 (loByte s.s) 0x01 := if_pos hc
  have hX : s.exchangeCE.x = trunc s.exchangeCE.wX s.x := State.normalize_x _
  have hY : s.exchangeCE.y = trunc s.exchangeCE.wX s.y := State.normalize_y _
  refine ⟨hm, hx, ?stack, by rw [hX, hw, trunc_toNat]; rfl, by rw [hY, hw, trunc_toNat]; rfl⟩
  rw [hS, word16_toNat, loByte_toNat, Nat.add_comm]
  rfl

/-- With the carry clear there is nothing to force: x keeps its value, and with x = 1 `XH` and `YH` are zero already. -/
theorem State.exchangeCE_of_no_carry {s : State} (hs : s.modeOk) (hc : s.flag .c = false) :
    s.exchangeCE = { s.setFlag .c s.e with e := false } := by
  have hx : (s.setFlag .c s.e).flag .x = s.flag .x := State.flag_setFlag .c s.e .x s
  rw [State.exchangeCE, hc]
  exact State.normalize_of_modeOk ⟨fun he => absurd he Bool.false_ne_true, fun h => hs.2 (hx.symm.trans h)⟩

/-- The flags, `S`, X and Y that XCE keeps when it leaves the processor in native mode. -/
theorem State.exchangeCE_keeps_of_no_carry {s : State} (hs : s.modeOk) (hc : s.flag .c = false) :
    s.exchangeCE.flag .m = s.flag .m ∧ s.exchangeCE.flag .x = s.flag .x ∧ s.exchangeCE.s = s.s ∧
      s.exchangeCE.x = s.x ∧ s.exchangeCE.y = s.y := by
  rw [State.exchangeCE_of_no_carry hs hc]
  exact ⟨State.flag_setFlag .c s.e .m s, State.flag_setFlag .c s.e .x s, rfl, rfl, rfl⟩

/-- Settles O51, by the carry that XCE finds, which is the new `E`. -/
theorem exchangeCarryAndEmulation : Obligations.ExchangeCarryAndEmulation := by
  intro s hs
  exact ⟨_, rfl, rfl, State.flag_c_exchangeCE (s.advance 1), keepsFlags_exchangeCE_of_p (State.advance_p 1 s),
    fun he => State.exchangeCE_of_carry (s := s.advance 1) he,
    fun he => State.exchangeCE_keeps_of_no_carry (s := s.advance 1) hs he, rfl, rfl⟩

end Sys2Proof.Machine
end

section
/-! SUPPORT. The claims on LDX and LDY, and on the stores (R271 to R276). -/

namespace Sys2Proof.Machine

/-! ### LDX and LDY (R271, R272) -/

/-- Cutting an operand to the width it was read at changes nothing. -/
theorem Operand.trunc_value (o : Operand) (s : State) (w : Width) : trunc w (o.value s w) = o.value s w :=
  trunc_of_lt (o.value_lt s w)

/-- Settles O23: the rows of LDX and LDY put the operand, cut to the width of the index registers, into the register,
and n and z describe it. -/
theorem loadIndex : Obligations.LoadIndex := by
  intro i o s
  have hvalue : (trunc s.wX (o.value s s.wX)).toNat = (o.value s s.wX).toNat := by rw [o.trunc_value]
  have hlt : (trunc s.wX (o.value s s.wX)).toNat < 2 ^ s.wX.bits := trunc_toNat_lt _ _
  constructor
  all_goals
    intro hrow
    exact ⟨_, exec_of_readRow hrow s, hvalue, hlt, State.nzOf_setNZ_trunc _ _ _, keepsFlags_setNZ_of_p rfl _ _, rfl,
      rfl⟩

/-! ### STA, STX, STY and STZ (R273 to R276) -/

/-- A store changes memory only. -/
theorem State.writeLoc_eq (l : Loc) (w : Width) (v : Word) (s : State) :
    s.writeLoc l w v = { s with mem := (s.writeLoc l w v).mem } := by cases w <;> rfl

/-- The low bits that a store writes are those of its register, or zero. -/
theorem StoreOp.trunc_value {op : StoreOp} {v : Word} {s : State}
    (h : (op, v) ∈ [(StoreOp.sta, s.areg s.wA), (.stx, trunc s.wX s.x), (.sty, trunc s.wX s.y), (.stz, 0)]) :
    trunc (op.width s) (op.value s) = v := by
  simp only [List.mem_cons, List.not_mem_nil, or_false, Prod.mk.injEq] at h
  obtain ⟨rfl, rfl⟩ | ⟨rfl, rfl⟩ | ⟨rfl, rfl⟩ | ⟨rfl, rfl⟩ := h
  · rfl
  · rfl
  · rfl
  · exact trunc_of_lt (Nat.two_pow_pos s.wA.bits)

/-- Settles O24: a storing row writes the location its form names, with `PC` past the instruction, and nothing else. -/
theorem StoreOp.stores : Obligations.Stores := by
  intro i op f v s hrow hv
  let t := s.advance (encode i).length
  refine ⟨_, exec_of_storeRow hrow s, ?contents, ?bytes, ?pc, ?rest⟩
  case contents => rw [State.contents_writeLoc, StoreOp.trunc_value hv]
  case bytes => exact State.keepsBytes_writeLoc _ _ _ t
  case pc => exact goesOn_advance (State.writeLoc_pc _ _ _ t)
  case rest => rw [State.writeLoc_eq]; rfl

end Sys2Proof.Machine
end

section
/-! SUPPORT. The claims on the register transfers and XBA (R320 to R332). -/

namespace Sys2Proof.Machine

/-! ### Into an index register (R320, R321, R326, R329, R331) -/

/-- Settles O29: each transfer puts its source, cut to the width of the index registers, into its destination. -/
theorem transferIndex : Obligations.TransferIndex := by
  intro i v s
  constructor
  · intro hrow
    have hi : (encode i).length = 1 ∧ exec i s = s.loadX v := by
      simp only [List.mem_cons, List.not_mem_nil, or_false, Prod.mk.injEq] at hrow
      obtain ⟨rfl, rfl⟩ | ⟨rfl, rfl⟩ | ⟨rfl, rfl⟩ := hrow <;> exact ⟨rfl, rfl⟩
    obtain ⟨hlen, hexec⟩ := hi
    obtain ⟨t, ht, hx, hnz, hrest⟩ := exec_of_loadX hlen (trunc_toNat s.wX v) hexec
    exact ⟨t, ht, hx, by rw [hx]; exact hnz, hrest⟩
  · intro hrow
    have hi : (encode i).length = 1 ∧ exec i s = s.loadY v := by
      simp only [List.mem_cons, List.not_mem_nil, or_false, Prod.mk.injEq] at hrow
      obtain ⟨rfl, rfl⟩ | ⟨rfl, rfl⟩ := hrow <;> exact ⟨rfl, rfl⟩
    obtain ⟨hlen, hexec⟩ := hi
    obtain ⟨t, ht, hy, hnz, hrest⟩ := exec_of_loadY hlen (trunc_toNat s.wX v) hexec
    exact ⟨t, ht, hy, by rw [hy]; exact hnz, hrest⟩

/-! ### Into the accumulator (R324, R325, R327, R330) -/

/-- Settles O30: each transfer puts its source, cut to its width, into the accumulator. -/
theorem transferAccumulator : Obligations.TransferAccumulator := by
  intro i w v s hrow
  have hi : (encode i).length = 1 ∧ exec i s = s.loadA w v := by
    simp only [List.mem_cons, List.not_mem_nil, or_false, Prod.mk.injEq] at hrow
    obtain ⟨rfl, rfl, rfl⟩ | ⟨rfl, rfl, rfl⟩ | ⟨rfl, rfl, rfl⟩ | ⟨rfl, rfl, rfl⟩ := hrow <;> exact ⟨rfl, rfl⟩
  obtain ⟨hlen, hexec⟩ := hi
  have ha : (((s.advance 1).setA w v).setNZ w v).areg w = trunc w v := State.areg_setA w v (s.advance 1)
  refine ⟨_, hexec, ?result, ?nz, State.keepsB_setA w v (s.advance 1), keepsFlags_setNZ_of_p rfl w v, ?pc, rfl⟩
  case result => rw [ha, trunc_toNat]
  case nz => rw [ha]; exact State.nzOf_setNZ_trunc w v _
  case pc => rw [goesOn, hlen]; rfl

/-! ### Into D and S (R322, R323, R328) -/

/-- `S` as a number after a write of all of it and `Normalize`. -/
theorem normalS_toNat (e : Bool) (v : Word) : (normalS e v).toNat = if e then 0x0100 + v.toNat % 256 else v.toNat := by
  cases e with
  | false => rfl
  | true =>
    rw [normalS, if_pos rfl, if_pos rfl, word16_toNat, loByte_toNat, Nat.add_comm]
    rfl

/-- Settles O31: where the mode invariants hold, `Normalize` only forces `SH` on the value put into `S`. -/
theorem transferToDirectAndStack : Obligations.TransferToDirectAndStack := by
  intro s hs
  have hnormalize : ∀ v, ((s.advance 1).setS v).normalize = { s.advance 1 with s := normalS s.e v } :=
    fun v => State.normalize_of_change hs ((s.advance 1).setS v) rfl
  refine ⟨⟨_, rfl, rfl, State.nzOf_setNZ s.c.isLt _, keepsFlags_setNZ_of_p rfl _ _, rfl, rfl⟩, fun i v hrow => ?_⟩
  have hi : (encode i).length = 1 ∧ exec i s = .next ((s.advance 1).setS v).normalize := by
    simp only [List.mem_cons, List.not_mem_nil, or_false, Prod.mk.injEq] at hrow
    obtain ⟨rfl, rfl⟩ | ⟨rfl, rfl⟩ := hrow <;> exact ⟨rfl, rfl⟩
  obtain ⟨hlen, hexec⟩ := hi
  rw [hnormalize] at hexec
  exact ⟨_, hexec, normalS_toNat s.e v, by rw [goesOn, hlen]; rfl, rfl⟩

/-! ### XBA (R332) -/

/-- Settles O32: the new `A`, which n and z describe, is the old high byte. -/
theorem exchangeAccumulatorHalves : Obligations.ExchangeAccumulatorHalves := by
  intro s
  have hc : (word16 (hiByte s.c) (loByte s.c)).toNat = s.c.toNat % 256 * 256 + s.c.toNat / 256 := by
    rw [word16_toNat, hiByte_toNat, loByte_toNat]
    omega
  have ha : (trunc .w8 (word16 (hiByte s.c) (loByte s.c))).toNat = s.c.toNat / 256 := by
    have := s.c.isLt
    rw [trunc_toNat, hc, Width.bits]
    omega
  refine ⟨_, rfl, hc, ?nz, keepsFlags_setNZ_of_p rfl _ _, rfl, rfl⟩
  case nz => rw [← ha]; exact State.nzOf_setNZ (trunc_toNat_lt _ _) _

end Sys2Proof.Machine
end

section
/-! SUPPORT. The claims on the block moves (R290 to R292): one iteration, and the iterations until `C` has been 0. -/

namespace Sys2Proof.Machine

/-! ### Offsets a block move passes -/

/-- The offset `k` bytes on from `r` inside its bank, upward (MVN) or downward (MVP). -/
def offsetAway (up : Bool) (r : Word) (k : Nat) : Word := if up then r + BitVec.ofNat 16 k else r - BitVec.ofNat 16 k

theorem offsetAway_zero (up : Bool) (r : Word) : offsetAway up r 0 = r := by cases up <;> simp [offsetAway]

theorem offsetAway_offsetAway_one (up : Bool) (r : Word) (k : Nat) :
    offsetAway up (offsetAway up r 1) k = offsetAway up r (k + 1) := by
  cases up
  · exact sub_one_sub r k
  · simp only [offsetAway, if_true, BitVec.add_assoc, ← BitVec.ofNat_add, Nat.add_comm]

/-- Fewer than 65536 bytes do not come back to where they began. -/
theorem offsetAway_ne {k : Nat} (up : Bool) (r : Word) (h0 : 0 < k) (h : k < 65536) : offsetAway up r k ≠ r := by
  intro he
  have hr := r.isLt
  have hn := congrArg BitVec.toNat he
  cases up <;> simp [offsetAway, BitVec.toNat_sub] at hn <;> omega

theorem trunc_offsetAway_one_toNat (w : Width) (up : Bool) (r : Word) :
    (trunc w (offsetAway up r 1)).toNat =
      if up then (r.toNat + 1) % 2 ^ w.bits else (r.toNat + 2 ^ w.bits - 1) % 2 ^ w.bits := by
  cases up
  · exact trunc_sub_one_toNat w r
  · exact trunc_add_one_toNat w r

/-! ### One iteration (R290) -/

/-- The state after one iteration. -/
def State.blockMoved (up : Bool) (dst src : Byte) (s : State) : State :=
  { s.writeByte (bankAddr dst s.y) (s.readByte .data (bankAddr src s.x)) with
    dbr := dst
    x := trunc s.wX (offsetAway up s.x 1)
    y := trunc s.wX (offsetAway up s.y 1)
    c := s.c - 1
    pc := if s.c = 0 then s.pc + 3 else s.pc }

theorem blockStep_eq (up : Bool) (dst src : Byte) (s : State) :
    s.blockStep dst src (if up then 1 else -1) = .next (s.blockMoved up dst src) := by
  have hdir : ∀ r : Word, r + (if up then 1 else -1) = offsetAway up r 1 := by
    intro r
    cases up
    · exact (sub_eq_add_neg r 1).symm
    · rfl
  have hpc : s.pc + BitVec.ofNat 16 3 - 3 = s.pc := BitVec.add_sub_cancel _ _
  simp only [State.blockStep, State.advance_x, State.advance_y, State.advance_c, State.advance_pc, State.advance_wX,
    hdir, hpc]
  rfl

/-- MVN and MVP, each one iteration in its direction. -/
theorem exec_blockMove {i : Instr} {up : Bool} {dst src : Byte}
    (h : (i, up) ∈ [(Instr.mvn dst src, true), (.mvp dst src, false)]) (s : State) :
    exec i s = .next (s.blockMoved up dst src) := by
  simp only [List.mem_cons, List.not_mem_nil, or_false, Prod.mk.injEq] at h
  obtain ⟨rfl, rfl⟩ | ⟨rfl, rfl⟩ := h
  · exact blockStep_eq true dst src s
  · exact blockStep_eq false dst src s

theorem State.byteAt_blockMoved (up : Bool) (dst src : Byte) (s : State) (a : Addr) :
    (s.blockMoved up dst src).byteAt a =
      if a = bankAddr dst s.y then s.readByte .data (bankAddr src s.x) else s.byteAt a :=
  State.byteAt_writeByte _ _ _ _

/-- Settles O52: an instruction executed is one iteration. -/
theorem blockMoveStep : Obligations.BlockMoveStep := by
  intro i up dst src s hrow size moved
  have hc : (s.c - 1).toNat = (s.c.toNat + 65535) % 65536 := by
    rw [BitVec.toNat_sub, Nat.add_comm]
    rfl
  refine ⟨_, exec_blockMove hrow s, ?copied, fun a ha => ?kept, trunc_offsetAway_one_toNat s.wX up s.x,
    trunc_offsetAway_one_toNat s.wX up s.y, hc, rfl, rfl⟩
  case copied => rw [State.byteAt_blockMoved, if_pos rfl]
  case kept => rw [State.byteAt_blockMoved, if_neg (by simpa using ha)]

/-! ### All iterations -/

/-- A block move from `s` has ended in `t`: the bytes counted by `C` and one more are copied, and the registers are
where the last iteration leaves them. -/
structure BlockCopied (up : Bool) (dst src : Byte) (s t : State) : Prop where
  copied : ∀ k, k ≤ s.c.toNat → s.isDevice (bankAddr src (offsetAway up s.x k)) = false →
    t.byteAt (bankAddr dst (offsetAway up s.y k)) = s.byteAt (bankAddr src (offsetAway up s.x k))
  kept : ∀ bank a, (bank = dst → ∀ k, k ≤ s.c.toNat → a ≠ offsetAway up s.y k) →
    t.byteAt (bankAddr bank a) = s.byteAt (bankAddr bank a)
  c : t.c = 0xFFFF
  x : t.x = offsetAway up s.x (s.c.toNat + 1)
  y : t.y = offsetAway up s.y (s.c.toNat + 1)
  pc : t.pc = s.pc + 3
  rest : t = { s with mem := t.mem, c := t.c, x := t.x, y := t.y, dbr := dst, pc := t.pc }

section
variable {up : Bool} {dst src : Byte} {s t : State} (hx : s.flag .x = false)
include hx

/-- With 16-bit index registers one iteration moves X and Y in all sixteen bits. -/
theorem State.blockMoved_index :
    (s.blockMoved up dst src).x = offsetAway up s.x 1 ∧ (s.blockMoved up dst src).y = offsetAway up s.y 1 := by
  have hw : s.wX = .w16 := by rw [State.wX_eq, hx]; rfl
  simp only [State.blockMoved, hw, trunc, and_self]

/-- The iteration that finds `C` at 0 is the last. -/
theorem blockCopied_last (hc : s.c = 0) : BlockCopied up dst src s (s.blockMoved up dst src) := by
  obtain ⟨hX, hY⟩ := State.blockMoved_index (up := up) (dst := dst) (src := src) hx
  have hcount : s.c.toNat = 0 := by rw [hc]; rfl
  refine ⟨fun k hk hdev => ?_, fun bank a hne => ?_, ?_, ?_, ?_, if_pos hc, rfl⟩
  · obtain rfl : k = 0 := by omega
    rw [offsetAway_zero] at hdev
    rw [offsetAway_zero, offsetAway_zero, State.byteAt_blockMoved, if_pos rfl, State.readByte_of_memory hdev]
  · rw [State.byteAt_blockMoved, if_neg]
    intro he
    obtain ⟨hbank, ha⟩ := bankAddr_inj.1 he
    exact hne hbank 0 (Nat.zero_le _) (by rw [ha, offsetAway_zero])
  · show s.c - 1 = 0xFFFF
    rw [hc]
    rfl
  · rw [hX, hcount]
  · rw [hY, hcount]

/-- An iteration that finds `C` above 0, followed by the rest of the move. The rest does not come back to the byte
written first, and between two banks it does not read it. -/
theorem blockCopied_cons (hc : s.c ≠ 0) (hbanks : dst ≠ src) (h : BlockCopied up dst src (s.blockMoved up dst src) t) :
    BlockCopied up dst src s t := by
  obtain ⟨hX, hY⟩ := State.blockMoved_index (up := up) (dst := dst) (src := src) hx
  obtain ⟨hcopied, hkept, hC, htx, hty, hpc, hrest⟩ := h
  have hcount : (s.blockMoved up dst src).c.toNat + 1 = s.c.toNat := by
    show (s.c - 1).toNat + 1 = s.c.toNat
    bv_omega
  simp only [hX, hY, offsetAway_offsetAway_one, hcount] at hcopied hkept htx hty
  have hlt := s.c.isLt
  refine ⟨fun k hk hdev => ?_, fun bank a hne => ?_, hC, htx, hty, ?_, hrest⟩
  · cases k with
    | zero =>
      rw [offsetAway_zero] at hdev
      have hlater : ∀ k, k ≤ (s.blockMoved up dst src).c.toNat → s.y ≠ offsetAway up s.y (k + 1) :=
        fun k hk => (offsetAway_ne up s.y (Nat.succ_pos k) (by omega)).symm
      rw [offsetAway_zero, offsetAway_zero, hkept dst s.y fun _ => hlater, State.byteAt_blockMoved, if_pos rfl,
        State.readByte_of_memory hdev]
    | succ k =>
      rw [hcopied k (by omega) hdev, State.byteAt_blockMoved, if_neg]
      exact fun he => hbanks (bankAddr_inj.1 he).1.symm
  · rw [hkept bank a fun hbank k hk => hne hbank (k + 1) (by omega), State.byteAt_blockMoved, if_neg]
    intro he
    obtain ⟨hbank, ha⟩ := bankAddr_inj.1 he
    exact hne hbank 0 (Nat.zero_le _) (by rw [ha, offsetAway_zero])
  · rw [hpc]
    exact congrArg (· + 3) (if_neg hc)

end

/-- Induction over the value of `C`. -/
theorem execTimes_blockMove {i : Instr} {up : Bool} {dst src : Byte}
    (hrow : (i, up) ∈ [(Instr.mvn dst src, true), (.mvp dst src, false)]) (hbanks : dst ≠ src) (n : Nat) (s : State)
    (hn : s.c.toNat = n) (hx : s.flag .x = false) :
    ∃ t, execTimes i (n + 1) s = .next t ∧ BlockCopied up dst src s t := by
  induction n generalizing s with
  | zero =>
    refine ⟨_, ?_, blockCopied_last hx (BitVec.eq_of_toNat_eq hn)⟩
    simp only [execTimes, exec_blockMove hrow]
  | succ n ih =>
    have hc : s.c ≠ 0 := by
      rintro h
      rw [h] at hn
      cases hn
    have hcount : (s.blockMoved up dst src).c.toNat = n := by
      show (s.c - 1).toNat = n
      bv_omega
    obtain ⟨t, ht, hcopied⟩ := ih (s.blockMoved up dst src) hcount hx
    refine ⟨t, ?_, blockCopied_cons hx hc hbanks hcopied⟩
    rw [execTimes, exec_blockMove hrow]
    exact ht

/-- Settles O53, by induction over the bytes still to be copied. -/
theorem blockMoveCompletes : Obligations.BlockMoveCompletes := by
  intro i up dst src s hrow hbanks hx away
  obtain ⟨t, ht, hcopied, hkept, hc, htx, hty, hpc, hrest⟩ := execTimes_blockMove hrow hbanks s.c.toNat s rfl hx
  exact ⟨t, ht, hcopied, hkept, hc, htx, hty, hpc, hrest⟩

end Sys2Proof.Machine
end

section
/-! SUPPORT. The claims on the pushes and pulls (R300 to R315). -/

namespace Sys2Proof.Machine

/-! ### Pushes (R300 to R309) -/

theorem pushRow_length_le {i : Instr} {bytes : List Byte} {s : State} (h : pushRow s i = some bytes) :
    bytes.length ≤ 2 := by
  have hwidth : ∀ (b : Bool) (v : Word), (if b then [loByte v] else [hiByte v, loByte v]).length ≤ 2 := by
    intro b v
    cases b <;> simp
  cases i <;> cases h
  case pha => exact hwidth _ s.c
  case phx => exact hwidth _ s.x
  case phy => exact hwidth _ s.y
  case phb | phk | php => exact Nat.le_succ 1

/-- Settles O33, by the law of the register pushes. -/
theorem pushRegister : Obligations.PushRegister := by
  intro i bytes s hrow
  have hlen : bytes.length ≤ 256 := (pushRow_length_le hrow).trans (by decide)
  let t := s.advance (encode i).length
  exact ⟨_, exec_of_pushRow hrow, pushList_pushed bytes t hlen, pushList_keepsBytes bytes t, pushList_s bytes t,
    by rw [pushList_eq]; rfl, by rw [pushList_eq]; rfl⟩

/-- PEA, PEI, PER and PHD push as a call does that counts `S` as 16 bits, and go on behind the instruction. -/
theorem exec_of_pushNRow_eq_callN {i : Instr} {v : Word} {s : State} (h : pushNRow s i = some v) :
    exec i s = .next (s.callN (encode i).length [hiByte v, loByte v] s.pbr
      (s.pc + BitVec.ofNat 16 (encode i).length)) := by
  rw [exec_of_pushNRow h, State.callN, pushNList_eq]
  rfl

/-- Settles O34: what a call that counts `S` as 16 bits leaves, with PBR kept and `PC` past the instruction. -/
theorem pushWord : Obligations.PushWord := by
  intro i v s hs hrow
  exact ⟨_, exec_of_pushNRow_eq_callN hrow, s.callN_pushedN _ _ _ _ (by simp), s.callN_keepsBytes _ _ _ _,
    s.callN_s _ _ _ _, rfl, s.callN_eq _ _ _ _ hs⟩

/-! ### Pulls that move `S` inside its page in emulation mode (R310, R311, R313 to R315) -/

/-- The value pulled fits its width. -/
theorem State.pulled_lt (s : State) (w : Width) : (s.pulled w).toNat < 2 ^ w.bits := by
  cases w
  · have := (s.readByte .pull (s.pullAddr 1)).isLt
    simp only [State.pulled, BitVec.toNat_setWidth, Width.bits]
    omega
  · exact (s.pulled .w16).isLt

/-- A pull instruction before it has put the value pulled anywhere: `PC` past its byte, `S` above the bytes pulled. -/
def State.afterPulls (s : State) (n : Nat) : State := { s.advance 1 with s := stackAbove s.e s.s n }

theorem exec_pla (s : State) :
    exec .pla s = .next (((s.afterPulls (widthBytes s.wA)).setA s.wA (s.pulled s.wA)).setNZ s.wA (s.pulled s.wA)) := by
  show execPla s = _
  rw [execPla, State.pullW_eq]
  rfl

theorem exec_plx (s : State) :
    exec .plx s = .next (((s.afterPulls (widthBytes s.wX)).setX s.wX (s.pulled s.wX)).setNZ s.wX (s.pulled s.wX)) := by
  show execPlx s = _
  rw [execPlx, State.pullW_eq]
  rfl

theorem exec_ply (s : State) :
    exec .ply s = .next (((s.afterPulls (widthBytes s.wX)).setY s.wX (s.pulled s.wX)).setNZ s.wX (s.pulled s.wX)) := by
  show execPly s = _
  rw [execPly, State.pullW_eq]
  rfl

theorem exec_plb (s : State) :
    exec .plb s = .next (((s.afterPulls 1).setDBR (s.readByte .pull (s.pullAddr 1))).setNZ .w8 (s.pulled .w8)) := rfl

theorem exec_plp (s : State) : exec .plp s = .next ((s.afterPulls 1).setP (s.readByte .pull (s.pullAddr 1))) := rfl

/-- Settles O35: each pull puts the value pulled, which fits its width, into its register, and sets n and z from it. -/
theorem pullRegister : Obligations.PullRegister := by
  intro s
  have hcut : ∀ w, trunc w (s.pulled w) = s.pulled w := fun w => trunc_of_lt (s.pulled_lt w)
  have hnz : ∀ (w : Width) (t : State), (t.setNZ w (s.pulled w)).nzOf w (s.pulled w).toNat :=
    fun w t => State.nzOf_setNZ (s.pulled_lt w) t
  have hdbr : (s.pulled .w8).toNat = (s.readByte .pull (s.pullAddr 1)).toNat := by
    have := (s.readByte .pull (s.pullAddr 1)).isLt
    rw [State.pulled, BitVec.toNat_setWidth]
    omega
  refine ⟨⟨_, exec_pla s, ?pla, State.keepsB_setA _ _ (s.afterPulls _), rfl, hnz _ _, keepsFlags_setNZ_of_p rfl _ _,
      rfl, rfl⟩,
    ⟨_, exec_plx s, hcut _, rfl, hnz _ _, keepsFlags_setNZ_of_p rfl _ _, rfl, rfl⟩,
    ⟨_, exec_ply s, hcut _, rfl, hnz _ _, keepsFlags_setNZ_of_p rfl _ _, rfl, rfl⟩,
    ⟨_, exec_plb s, rfl, rfl, ?plb, keepsFlags_setNZ_of_p rfl _ _, rfl, rfl⟩⟩
  case pla => exact (State.areg_setA _ _ (s.afterPulls _)).trans (hcut _)
  case plb =>
    have hplb := hnz .w8 ((s.afterPulls 1).setDBR (s.readByte .pull (s.pullAddr 1)))
    rw [hdbr] at hplb
    exact hplb

/-! ### PLD and PLP (R312, R313) -/

/-- PLD counts `S` as 16 bits while it pulls (R70). -/
theorem exec_pld (s : State) :
    exec .pld s = .next (State.setNZ .w16 (s.read16 .pull (bankAddr 0 (s.s + 1)) (bankAddr 0 (s.s + 2)))
      { s.advance 1 with
        s := s.s + 2
        d := s.read16 .pull (bankAddr 0 (s.s + 1)) (bankAddr 0 (s.s + 2)) }).normalize := by
  have h2 : s.s + 1 + 1 = s.s + 2 := BitVec.add_assoc _ _ _
  rw [← h2]
  rfl

/-- `Normalize` after n and z are set, `S` moved and `D` written: the mode invariants leave it `SH` to force. -/
theorem State.normalize_setNZ {s t : State} (hs : s.modeOk) (ht : t = { s with s := t.s, d := t.d, pc := t.pc })
    (w : Width) (v : Word) : (t.setNZ w v).normalize = { t.setNZ w v with s := normalS s.e t.s } := by
  have hp : t.p = s.p := by rw [ht]
  have he : t.e = s.e := by rw [ht]
  have hflags := keepsFlags_setNZ_of_p hp w v
  have hm : (t.setNZ w v).flag .m = s.flag .m := hflags .m (by decide)
  have hx : (t.setNZ w v).flag .x = s.flag .x := hflags .x (by decide)
  have hmx : (t.setNZ w v).e = true → (t.setNZ w v).flag .m = true ∧ (t.setNZ w v).flag .x = true := by
    rw [State.setNZ_e, he, hm, hx]
    exact fun hE => ⟨(hs.1 hE).1, (hs.1 hE).2.1⟩
  have hindex : (t.setNZ w v).flag .x = true → hiByte (t.setNZ w v).x = 0 ∧ hiByte (t.setNZ w v).y = 0 := by
    rw [hx, State.setNZ_x, State.setNZ_y, ht]
    exact hs.2
  rw [State.normalize_eq hmx hindex, ← he]
  rfl

/-- The pulls of PLP keep the mode invariants: `S` stays in its page in emulation mode. -/
theorem State.modeOk_afterPulls {s : State} (hs : s.modeOk) (n : Nat) : (s.afterPulls n).modeOk := by
  refine State.modeOk_of_same (t := s.afterPulls n) hs rfl rfl rfl (fun hE => ?_) hs.2
  show hiByte (stackAbove s.e s.s n) = 0x01
  rw [hE, hiByte_stackAbove]
  exact (hs.1 hE).2.2

/-- Settles O36: PLD ends in a `Normalize` that forces `SH` only, PLP in a write of the whole of `P`. -/
theorem pullDirectAndStatus : Obligations.PullDirectAndStatus := by
  intro s hs
  constructor
  · have hexec := exec_pld s
    rw [State.normalize_setNZ hs rfl] at hexec
    exact ⟨_, hexec, rfl, rfl, State.nzOf_setNZ (BitVec.isLt _) _, keepsFlags_setNZ_of_p rfl _ _, rfl, rfl⟩
  · have hframe := State.setP_eq (State.modeOk_afterPulls hs 1) (s.readByte .pull (s.pullAddr 1))
    refine ⟨_, exec_plp s, fun f b hfb => ?flags, State.normalize_x _, State.normalize_y _, congrArg State.s hframe,
      rfl, rfl⟩
    case flags =>
      obtain rfl := flagBit_of_mem_layout hfb
      exact ⟨rfl, State.flag_setP _ _ f⟩

end Sys2Proof.Machine
end

section
/-! SUPPORT. The claims on the steps and on exceptions (R341 to R353, R380): that a step always answers a next state,
the events at its boundary, and the return from an event to what it interrupted. -/

namespace Sys2Proof.Machine

/-! ### Steps (R98, R342, R349) -/

/-- Settles O5, by the boundary of an undisturbed step. -/
theorem stepRunsDecodedInstruction : Obligations.StepRunsDecodedInstruction :=
  fun _ _ _ hs hd => step_of_decode hs hd

/-- Every instruction has a meaning. -/
theorem exec_next (i : Instr) (s : State) : ∃ t, exec i s = .next t :=
  (memoryFrame i s).imp fun _ h => h.1

theorem State.fetchBytes_four (s : State) : ∃ op a b c, s.fetchBytes = [op, a, b, c] := by
  rw [State.fetchBytes]
  split
  · exact ⟨_, _, _, _, rfl⟩
  · split <;> exact ⟨_, _, _, _, rfl⟩

/-- Four bytes are fetched, and four bytes always decode (R98). -/
theorem fetchAndExecute_next (s : State) : ∃ t, fetchAndExecute s = .next t := by
  obtain ⟨op, a, b, c, hbytes⟩ := s.fetchBytes_four
  obtain ⟨i, rest, hd, -⟩ := decodeTotal (s.flag .m) (s.flag .x) op a b c
  simp only [fetchAndExecute, hbytes, hd]
  exact exec_next i s

theorem step_next (s : State) : ∃ t, step s = .next t := by
  unfold step
  cases s.boundary with
  | done t => exact ⟨t, rfl⟩
  | execute t => exact fetchAndExecute_next t

/-- Settles O7: every instruction has a meaning, and every step that executes one finds one to execute. -/
theorem everyStepAnswersNext : Obligations.EveryStepAnswersNext := ⟨exec_next, step_next⟩

/-! ### RESET (R380, R381) -/

/-- Settles O54: the step is the RESET event, whose values are constants but for `PC` and the draws. -/
theorem resetEvent : Obligations.ResetEvent := by
  intro s hr
  obtain ⟨hm, hx, hd, hi⟩ := resetP_flags s.nextInput.draws
  exact ⟨_, step_reset hr, rfl, hm, hx, hd, hi, rfl, rfl, rfl, hiByte_word16 _ _, hiByte_word16 _ _, hiByte_word16 _ _,
    rfl, rfl, rfl, rfl, rfl, rfl, rfl⟩

/-! ### NMI and IRQ (R343, R344, R347) -/

/-- Settles O45: the step enters the event from the state with its inputs taken in and the wait ended. -/
theorem hardwareInterrupts : Obligations.HardwareInterrupts := by
  refine ⟨fun s hr hs hn => ?nmi, fun s hr hs hp hn hq hi => ?irq⟩
  case nmi =>
    refine ⟨_, step_nmi hr hs hn, ?_⟩
    rw [State.interrupt_nmi { s.nextInput with waiting := false } true]
    exact entered_interrupt (k := .nmi) (s := { s.nextInput with waiting := false, nmiPending := false }) rfl
  case irq =>
    exact ⟨_, step_irq hr hs hp hn hq hi,
      entered_interrupt (k := .irq) (s := { s.nextInput with waiting := false }) (Bool.and_true _)⟩

/-! ### The return to what an event interrupted (R350, R351) -/

/-- The frame from its last byte up: `P`, `PC` low byte first, and `PBR` in native mode. -/
theorem frame_from_top (s : State) (ret : Word) (status : Byte) :
    (frame s ret status)[frameBytes s.e - 1]? = some status ∧
      (frame s ret status)[frameBytes s.e - 2]? = some (loByte ret) ∧
      (frame s ret status)[frameBytes s.e - 3]? = some (hiByte ret) ∧
      (s.e = false → (frame s ret status)[frameBytes s.e - 4]? = some s.pbr) := by
  unfold frame frameBytes
  cases s.e <;> simp

/-- The frame of an event entered from `s` lies on the stack of `t`, and its status byte is `P` but for bits that
`Normalize` sets. -/
structure FrameLies (s t : State) (ret : Word) (status : Byte) : Prop where
  bytes : pushed s t (frame s ret status)
  stack : t.s = stackBelow s.e s.s (frameBytes s.e)
  mode : t.e = s.e
  forced : (if s.e then status ||| 0x30 else status) = s.p

theorem frameLies_of_entered {s t : State} {ret vec : Word} {status : Byte} (h : entered s t ret status vec)
    (hstatus : (if s.e then status ||| 0x30 else status) = s.p) : FrameLies s t ret status := by
  obtain ⟨hpushed, -, hs, -, -, -, -, -, hframe⟩ := h
  exact ⟨hpushed, hs, by rw [hframe], hstatus⟩

section
variable {s t h : State} {ret : Word} {status : Byte} (hlies : FrameLies s t ret status) (he : h.e = t.e)
  (hs : h.s = t.s) (hread : ∀ a ∈ s.pushAddrs (frameBytes s.e), h.readByte .pull a = t.byteAt a)
include hlies he hs hread

/-- Pulls that read the frame yield its bytes, the last first. -/
theorem pull_of_frameLies {k : Nat} {b : Byte} (hk : k ≤ frameBytes s.e)
    (hb : (frame s ret status)[frameBytes s.e - k]? = some b) : h.readByte .pull (h.pullAddr k) = b := by
  obtain ⟨hlt, hget⟩ := List.getElem?_eq_some_iff.1 hb
  have hmem : s.pushAddr (frameBytes s.e - k) ∈ s.pushAddrs (frameBytes s.e) :=
    mem_pushAddrs.2 ⟨_, by rwa [frame_length] at hlt, rfl⟩
  rw [pullAddr_eq_pushAddr (he.trans hlies.mode) (hs.trans hlies.stack) hk, hread _ hmem, hlies.bytes _ hlt, hget]

/-- RTI where its pulls read the frame of an event. -/
theorem rti_of_frameLies (hmode : h.modeOk) :
    ∃ u, exec .rti h = .next u ∧ u.p = s.p ∧ u.pc = ret ∧ u.s = s.s ∧ u.e = s.e ∧
      u.pbr = (if s.e then h.pbr else s.pbr) ∧
      u = { h with x := u.x, y := u.y, s := u.s, pbr := u.pbr, p := u.p, pc := u.pc } := by
  have hE : h.e = s.e := he.trans hlies.mode
  have hS : h.s = stackBelow s.e s.s (frameBytes s.e) := hs.trans hlies.stack
  have h3 : 3 ≤ frameBytes s.e := by unfold frameBytes; split <;> decide
  obtain ⟨hstatus, hlo, hhi, hbank⟩ := frame_from_top s ret status
  replace hstatus := pull_of_frameLies hlies he hs hread (by omega) hstatus
  replace hlo := pull_of_frameLies hlies he hs hread (by omega) hlo
  replace hhi := pull_of_frameLies hlies he hs hread h3 hhi
  refine ⟨_, exec_rti hmode, ?status, ?offset, ?stack, hE, ?bank, rfl⟩
  case status =>
    rw [← hlies.forced, ← hE, ← hstatus]
    rfl
  case offset =>
    show h.read16 .pull _ _ = ret
    rw [State.read16, hlo, hhi, word16_lo_hi]
  case stack =>
    show stackAbove h.e h.s (frameBytes h.e) = s.s
    rw [hE, hS, stackAbove_stackBelow _ _ le_rfl, Nat.sub_self, stackBelow]
  case bank =>
    show (if h.e then h.pbr else h.readByte .pull (h.pullAddr 4)) = _
    rw [hE]
    cases hn : s.e with
    | true => rfl
    | false => exact pull_of_frameLies hlies he hs hread (by rw [hn]; decide) (hbank hn)

end

/-- Where the mode invariants hold, the bits that `Normalize` sets are set already. -/
theorem State.p_forced {s : State} (hs : s.modeOk) : (if s.e then s.p ||| 0x30 else s.p) = s.p :=
  congrArg State.p (State.normalize_of_modeOk hs)

/-- Bit 4, which an NMI or IRQ clears in the frame in emulation mode (R348), is one of them. -/
theorem State.p_forced_of_hardware {s : State} (hs : s.modeOk) :
    (if s.e then (if s.e then s.p &&& 0xEF else s.p) ||| 0x30 else if s.e then s.p &&& 0xEF else s.p) = s.p := by
  have hbits : (s.p &&& 0xEF) ||| 0x30 = s.p ||| 0x30 := by
    apply eq_of_flags
    intro f
    cases f <;> simp [flagBit]
  have hforced := State.p_forced hs
  cases he : s.e with
  | false => rfl
  | true =>
    rw [he] at hforced
    exact hbits.trans hforced

/-- An NMI or IRQ is entered from the state with the inputs of the step taken in, which has the `P`, `PC`, `S` and `E`
of the state before the step. -/
theorem frameLies_of_step {s t : State} (hs : s.modeOk) (hr : s.input.reset = false) (hstop : s.stopped = false)
    (hcause : s.nmiPending = true ∨ s.input.nmi = true ∨ (s.input.irq = true ∧ s.flag .i = false))
    (hstep : step s = .next t) : FrameLies s t s.pc (if s.e then s.p &&& 0xEF else s.p) := by
  obtain ⟨hnmi, hirq⟩ := hardwareInterrupts
  have hstatus := State.p_forced_of_hardware hs
  by_cases hn : s.nmiPending = true ∨ s.input.nmi = true
  · obtain ⟨t', ht', hentered⟩ := hnmi s hr hstop hn
    obtain rfl : t = t' := Host.Outcome.next.inj (hstep.symm.trans ht')
    obtain ⟨hpushed, hS, hE, -⟩ := frameLies_of_entered hentered hstatus
    exact ⟨hpushed, hS, hE, hstatus⟩
  · obtain ⟨hlatch, hedge⟩ := not_or.1 hn
    obtain ⟨hq, hi⟩ := (hcause.resolve_left hlatch).resolve_left hedge
    obtain ⟨t', ht', hentered⟩ :=
      hirq s hr hstop (Bool.eq_false_of_not_eq_true hlatch) (Bool.eq_false_of_not_eq_true hedge) hq hi
    obtain rfl : t = t' := Host.Outcome.next.inj (hstep.symm.trans ht')
    obtain ⟨hpushed, hS, hE, -⟩ := frameLies_of_entered hentered hstatus
    exact ⟨hpushed, hS, hE, hstatus⟩

/-- BRK and COP push `P` as it is, and the offset after the signature byte. -/
theorem frameLies_of_software {s t : State} {sig : Byte} (hs : s.modeOk)
    (hexec : exec (.brk sig) s = .next t ∨ exec (.cop sig) s = .next t) : FrameLies s t (s.pc + 2) s.p := by
  have hentered : ∃ vec, entered s t (s.pc + 2) s.p vec := by
    obtain hexec | hexec := hexec
    · obtain ⟨t', ht', hentered⟩ := softwareInterrupts (.brk sig) sig _ s List.mem_cons_self
      obtain rfl : t = t' := Host.Outcome.next.inj (hexec.symm.trans ht')
      exact ⟨_, hentered⟩
    · obtain ⟨t', ht', hentered⟩ :=
        softwareInterrupts (.cop sig) sig _ s (List.mem_cons_of_mem _ List.mem_cons_self)
      obtain rfl : t = t' := Host.Outcome.next.inj (hexec.symm.trans ht')
      exact ⟨_, hentered⟩
  obtain ⟨vec, hentered⟩ := hentered
  exact frameLies_of_entered hentered (State.p_forced hs)

/-- Settles O47: each of the four events leaves its frame, and RTI pulls it. -/
theorem interruptThenReturn : Obligations.InterruptThenReturn := by
  intro s t h ret hs hh hevent he hS hread
  obtain ⟨hr, hstop, hcause, hstep, rfl⟩ | ⟨sig, hexec, rfl⟩ := hevent
  · exact rti_of_frameLies (frameLies_of_step hs hr hstop hcause hstep) he hS hread hh
  · exact rti_of_frameLies (frameLies_of_software hs hexec) he hS hread hh

end Sys2Proof.Machine
end
